-- ==== Sys2Proof/Word.lean ====
section
/-! DEFINITION. The widths the spec gives names to (00_scope.md R5, R7): bits are numbered from the least
significant, every value is unsigned. -/

namespace Sys2Proof

/-- A register of the window, a command word, the data of one host access: 32 bits (00_scope.md R5). -/
abbrev Word := BitVec 32

/-- A byte of the block buffer, an 8-bit channel (10_state.md R34, R35). -/
abbrev Byte := BitVec 8

/-- A 5:6:5 colour word (30_encoding.md R76). -/
abbrev Half := BitVec 16

/-- A selector as the SEL registers hold it (10_state.md R37). -/
abbrev Nibble := BitVec 4

end Sys2Proof
end

