-- ==== Sys2Proof/Config.lean ====
section
/-! DEFINITION. The named parameters the spec leaves open (00_scope.md R6; 92_eei_decisions.md, OPEN
parameters). Each is an opaque constant: nothing can be proved of its value. Where the spec requires a property,
the parameter itself is built from the constant here, in Machine/Ops.lean, Machine/Bc1.lean, Machine/Bc7.lean
and Machine/Bc7Search.lean, in a way that gives every legal parameter and no other (notes/assumptions). -/

namespace Sys2Proof.Config

/-- BCU_BASE divided by 256 (20_memory.md R50; entry 6). -/
opaque bcuBaseIndex : Nat

/-- Bus address of offset 0x000, 256-byte aligned (20_memory.md R50). -/
def bcuBase : Nat := 256 * bcuBaseIndex

/-- The registers a command may read (30_encoding.md R85), which BCU_LATENCY may depend on (60_exceptions.md
R265). -/
structure Inputs where
  ctxv : Bool
  cfg0 : Word
  cfg1 : Word
  cfg2 : Word
  tile : Vector Word 16
  block : Vector Byte 16
  endp : Word
  sel : Vector Word 4
deriving DecidableEq, Repr

/-- BCU_LATENCY less 1 (60_exceptions.md R265, R266; entry 4). -/
opaque bcuLatencyExtra : Word → Inputs → Nat

/-- A colour without alpha. -/
structure Rgb where
  r : Byte
  g : Byte
  b : Byte
deriving DecidableEq, Repr, Inhabited

/-- The colours of P[2] and P[3] of BC1_PAL_1 (41_bc1.md R146; entry 8). P[3] is used in 4-colour mode only. -/
opaque bc1Pal1 : Half → Half → Rgb × Rgb

/-- The colours of P[2] and P[3] of BC1_PAL_2 (41_bc1.md R146; entry 8). -/
opaque bc1Pal2 : Half → Half → Rgb × Rgb

/-- The colours of P[2] and P[3] of BC1_PAL_3 (41_bc1.md R146; entry 8). -/
opaque bc1Pal3 : Half → Half → Rgb × Rgb

/-- BC7_P2[row][pixel] away from pixel 0 and the anchor (43_bc7.md R187; entry 9). -/
opaque bc7P2 : Nat → Nat → Fin 2

/-- BC7_P3[row][pixel] away from pixel 0 and the anchors (43_bc7.md R187; entry 9). -/
opaque bc7P3 : Nat → Nat → Fin 3

/-- BC7_A2[row] less 1 (43_bc7.md R188; entry 9). -/
opaque bc7A2 : Nat → Fin 15

/-- BC7_A3a[row] less 1 (43_bc7.md R188; entry 9). -/
opaque bc7A3a : Nat → Fin 15

/-- BC7_A3b[row] among the 14 pixels other than 0 and BC7_A3a[row] (43_bc7.md R188; entry 9). -/
opaque bc7A3b : Nat → Fin 14

/-- Candidates of the BC7 search that the budget (UBER, BC7_MAX_PART) adds, for a tile, that budget and a mode
mask (44_quantizer.md R246; entry 10). -/
opaque bc7Candidates : Vector Word 16 → Nat → Nat → Nat → List (Vector Byte 16)

/-- The arguments of BC7_SEARCH (44_quantizer.md R246). -/
structure SearchArgs where
  tile : Vector Word 16
  uber : Nat
  perceptual : Nat
  cfg2 : Word
  modeMask : Nat
  maxPart : Nat
deriving DecidableEq, Repr

/-- The fixed choice among candidates that tie in error, mode and partition: the least rank (44_quantizer.md
R246, property 2; entry 10). -/
opaque bc7TieRank : SearchArgs → Vector Byte 16 → Nat

/-- What BC7_SEARCH returns outside its domain, an empty mode mask, which INIT rejects (40_context.md R124;
entry 10). -/
opaque bc7OutsideDomain : SearchArgs → Vector Byte 16

end Sys2Proof.Config
end

