-- ==== Sys2Proof/Syntax.lean ====
section
/-! DEFINITION. The commands of the BCU (30_encoding.md R73, spec/opcode_table.json) and what the host can do
at the register window (20_memory.md; 30_encoding.md R83). -/

namespace Sys2Proof

/-- The operations of 30_encoding.md R71. -/
inductive Op where
  | init | destroy | reset | pack | unpack | select | encode | eval
deriving DecidableEq, Repr

/-- The formats of 30_encoding.md R72; `none` is the format field of a context command. -/
inductive Fmt where
  | none | bc1 | bc4 | bc5 | bc7
deriving DecidableEq, Repr

/-- The 21 commands (30_encoding.md R73), one constructor per row of spec/opcode_table.json. A command has no
operand: its operands are registers fixed by the operation (30_encoding.md R70, R85). -/
inductive Instr where
  | init
  | destroy
  | reset
  | packBc1
  | packBc4
  | packBc5
  | unpackBc1
  | unpackBc4
  | unpackBc5
  | unpackBc7
  | selectBc1
  | selectBc4
  | selectBc5
  | encodeBc1
  | encodeBc4
  | encodeBc5
  | encodeBc7
  | evalBc1
  | evalBc4
  | evalBc5
  | evalBc7
deriving DecidableEq, Repr

/-- The operation of a command (30_encoding.md R73). -/
def Instr.op : Instr → Op
  | .init => .init
  | .destroy => .destroy
  | .reset => .reset
  | .packBc1 => .pack
  | .packBc4 => .pack
  | .packBc5 => .pack
  | .unpackBc1 => .unpack
  | .unpackBc4 => .unpack
  | .unpackBc5 => .unpack
  | .unpackBc7 => .unpack
  | .selectBc1 => .select
  | .selectBc4 => .select
  | .selectBc5 => .select
  | .encodeBc1 => .encode
  | .encodeBc4 => .encode
  | .encodeBc5 => .encode
  | .encodeBc7 => .encode
  | .evalBc1 => .eval
  | .evalBc4 => .eval
  | .evalBc5 => .eval
  | .evalBc7 => .eval

/-- The format of a command (30_encoding.md R73). -/
def Instr.fmt : Instr → Fmt
  | .init => .none
  | .destroy => .none
  | .reset => .none
  | .packBc1 => .bc1
  | .packBc4 => .bc4
  | .packBc5 => .bc5
  | .unpackBc1 => .bc1
  | .unpackBc4 => .bc4
  | .unpackBc5 => .bc5
  | .unpackBc7 => .bc7
  | .selectBc1 => .bc1
  | .selectBc4 => .bc4
  | .selectBc5 => .bc5
  | .encodeBc1 => .bc1
  | .encodeBc4 => .bc4
  | .encodeBc5 => .bc5
  | .encodeBc7 => .bc7
  | .evalBc1 => .bc1
  | .evalBc4 => .bc4
  | .evalBc5 => .bc5
  | .evalBc7 => .bc7

/-- The context operations INIT, DESTROY and RESET (40_context.md); the others are data operations
(60_exceptions.md R262). -/
def Op.isContext : Op → Bool
  | .init => true
  | .destroy => true
  | .reset => true
  | .pack => false
  | .unpack => false
  | .select => false
  | .encode => false
  | .eval => false

/-- The registers of the window by the names of 20_memory.md R50 and 30_encoding.md R83. `blockWord k` is word
`k` of the block buffer (10_state.md R35). -/
inductive Reg where
  | cmd
  | status
  | ctrl
  | cfg0
  | cfg1
  | cfg2
  | tile (p : Fin 16)
  | blockWord (k : Fin 4)
  | endp
  | sel (k : Fin 4)
  | err
  | out (p : Fin 16)
deriving DecidableEq, Repr

/-- The width of a host access: 8, 16 or 32 bits (20_memory.md R55). -/
inductive Width where
  | byte | half | word
deriving DecidableEq, Repr

/-- A bus address: `window o` is BCU_BASE + o, as host programs write it (30_encoding.md R83); `absolute a` is
the address a (20_memory.md R50). -/
inductive BusAddr where
  | window (offset : Nat)
  | absolute (addr : Nat)
deriving DecidableEq, Repr

/-- What happens next at the BCU: a host access (20_memory.md R59), one step of the unit (60_exceptions.md
R266), the host waiting for BUSY = 0 (30_encoding.md R83), or the platform's reset input
(70_reset_and_hazards.md R290). -/
inductive HostOp where
  | read (w : Width) (a : BusAddr)
  | write (w : Width) (a : BusAddr) (v : Word)
  | tick
  | wait
  | hardReset
deriving DecidableEq, Repr

end Sys2Proof
end

