-- ==== Sys2Proof/WellFormed.lean ====
section
/-! DEFINITION. Which (OP, FMT) pairs are commands (30_encoding.md R73, R74) and which host accesses the BCU
accepts (20_memory.md R50, R55). -/

namespace Sys2Proof

/-- The pairs of 30_encoding.md R73: a context operation has no format, a data operation has one, and PACK.BC7
and SELECT.BC7 are not defined. -/
def definedPair (o : Op) (f : Fmt) : Bool :=
  if o.isContext then f = .none
  else f ≠ .none && !(f = .bc7 && (o = .pack || o = .select))

/-- A command is well formed when its pair is in the table of 30_encoding.md R73. -/
def Instr.wellFormed (i : Instr) : Bool := definedPair i.op i.fmt

/-- The offset lies in the 256-byte window (20_memory.md R50). -/
def offsetInWindow (o : Nat) : Bool := o < 256

/-- The only access the BCU accepts: 32 bits at a multiple of 4 (20_memory.md R55). -/
def acceptedAccess (w : Width) (o : Nat) : Bool := w = .word && o % 4 = 0

/-- A host operation of a program is well formed when it is no access, or an accepted access to the window by
its name (30_encoding.md R83). -/
def HostOp.wellFormed : HostOp → Bool
  | .read w (.window o) => offsetInWindow o && acceptedAccess w o
  | .write w (.window o) _ => offsetInWindow o && acceptedAccess w o
  | .read _ (.absolute _) => false
  | .write _ (.absolute _) _ => false
  | .tick => true
  | .wait => true
  | .hardReset => true

end Sys2Proof
end

