-- ==== Sys2Proof/Decode.lean ====
section
/-! DEFINITION. The command word (30_encoding.md R70 to R74): the decoder, total on every word and every byte
string, rejecting by name, and the encoder, written from the same tables. -/

namespace Sys2Proof

/-- Why a word is an illegal command, in the words of 30_encoding.md R74; `truncated` is a byte string shorter
than one command (30_encoding.md R86). -/
inductive Reject where
  | reservedBits
  | undefinedOp
  | reservedFmt
  | contextWithFormat
  | dataWithoutFormat
  | packBc7
  | selectBc7
  | truncated
deriving DecidableEq, Repr

/-- OP, bits 7:0 of the command word (30_encoding.md R70). -/
def opField (w : Word) : Nat := w.toNat % 256

/-- FMT, bits 10:8 of the command word (30_encoding.md R70). -/
def fmtField (w : Word) : Nat := w.toNat / 256 % 8

/-- Bits 31:11 of the command word, reserved, must be 0 (30_encoding.md R70). -/
def reservedField (w : Word) : Nat := w.toNat / 2048

/-- 30_encoding.md R71. -/
def opOfCode : Nat → Option Op
  | 0x01 => some .init
  | 0x02 => some .destroy
  | 0x03 => some .reset
  | 0x10 => some .pack
  | 0x11 => some .unpack
  | 0x12 => some .select
  | 0x13 => some .encode
  | 0x14 => some .eval
  | _ => none

/-- 30_encoding.md R72; 5, 6 and 7 are reserved. -/
def fmtOfCode : Nat → Option Fmt
  | 0 => some .none
  | 1 => some .bc1
  | 2 => some .bc4
  | 3 => some .bc5
  | 4 => some .bc7
  | _ => none

/-- 30_encoding.md R73: the command of an (OP, FMT) pair, or the reason R74 gives for its absence. -/
def instrOfPair : Op → Fmt → Except Reject Instr
  | .init, .none => .ok .init
  | .destroy, .none => .ok .destroy
  | .reset, .none => .ok .reset
  | .pack, .bc1 => .ok .packBc1
  | .pack, .bc4 => .ok .packBc4
  | .pack, .bc5 => .ok .packBc5
  | .pack, .bc7 => .error .packBc7
  | .unpack, .bc1 => .ok .unpackBc1
  | .unpack, .bc4 => .ok .unpackBc4
  | .unpack, .bc5 => .ok .unpackBc5
  | .unpack, .bc7 => .ok .unpackBc7
  | .select, .bc1 => .ok .selectBc1
  | .select, .bc4 => .ok .selectBc4
  | .select, .bc5 => .ok .selectBc5
  | .select, .bc7 => .error .selectBc7
  | .encode, .bc1 => .ok .encodeBc1
  | .encode, .bc4 => .ok .encodeBc4
  | .encode, .bc5 => .ok .encodeBc5
  | .encode, .bc7 => .ok .encodeBc7
  | .eval, .bc1 => .ok .evalBc1
  | .eval, .bc4 => .ok .evalBc4
  | .eval, .bc5 => .ok .evalBc5
  | .eval, .bc7 => .ok .evalBc7
  | .init, .bc1 | .init, .bc4 | .init, .bc5 | .init, .bc7
  | .destroy, .bc1 | .destroy, .bc4 | .destroy, .bc5 | .destroy, .bc7
  | .reset, .bc1 | .reset, .bc4 | .reset, .bc5 | .reset, .bc7 => .error .contextWithFormat
  | .pack, .none | .unpack, .none | .select, .none | .encode, .none | .eval, .none =>
    .error .dataWithoutFormat

/-- The command a word is (30_encoding.md R70 to R73), or why it is none (R74). -/
def decodeWord (w : Word) : Except Reject Instr :=
  if reservedField w ≠ 0 then .error .reservedBits
  else match opOfCode (opField w) with
    | none => .error .undefinedOp
    | some o => match fmtOfCode (fmtField w) with
      | none => .error .reservedFmt
      | some f => instrOfPair o f

/-- A 32-bit word from its bytes, the byte at the lowest address in bits 7:0 (20_memory.md R52). -/
def wordOfBytes (b0 b1 b2 b3 : Byte) : Word := b3 ++ b2 ++ b1 ++ b0

/-- Decoding a byte string: one command is four bytes (30_encoding.md R86), little-endian (20_memory.md R52);
the answer is the command and the bytes after it. -/
def decodeBytes : List Byte → Except Reject (Instr × List Byte)
  | b0 :: b1 :: b2 :: b3 :: rest =>
    match decodeWord (wordOfBytes b0 b1 b2 b3) with
    | .ok i => .ok (i, rest)
    | .error r => .error r
  | [] => .error .truncated
  | [_] => .error .truncated
  | [_, _] => .error .truncated
  | [_, _, _] => .error .truncated

/-- 30_encoding.md R71. -/
def Op.code : Op → Nat
  | .init => 0x01
  | .destroy => 0x02
  | .reset => 0x03
  | .pack => 0x10
  | .unpack => 0x11
  | .select => 0x12
  | .encode => 0x13
  | .eval => 0x14

/-- 30_encoding.md R72. -/
def Fmt.code : Fmt → Nat
  | .none => 0
  | .bc1 => 1
  | .bc4 => 2
  | .bc5 => 3
  | .bc7 => 4

/-- The word of a command: OP in bits 7:0, FMT in bits 10:8, the rest 0 (30_encoding.md R70). -/
def encode (i : Instr) : Word := BitVec.ofNat 32 (i.op.code + 256 * i.fmt.code)

/-- Byte `j` of a word, bits 8j+7:8j (20_memory.md R52). -/
def byteOfWord (w : Word) (j : Nat) : Byte := BitVec.ofNat 8 (w.toNat / 2 ^ (8 * j))

/-- The bytes of a command, lowest address first (20_memory.md R52). -/
def encodeBytes (i : Instr) : List Byte :=
  [byteOfWord (encode i) 0, byteOfWord (encode i) 1, byteOfWord (encode i) 2, byteOfWord (encode i) 3]

/-- The instruction the decoder reads from an instruction whose bits are `w`, numbered as
spec/opcode_table.json numbers them; every bit from `nbits` up is 0. Bits above the 32 of a command must be 0,
since a command is one word (30_encoding.md R86). -/
def decodeTableWord (nbits w : Nat) : Option Instr :=
  let v := w % 2 ^ nbits
  if v < 2 ^ 32 then
    let word := BitVec.ofNat 32 v
    match decodeBytes [byteOfWord word 0, byteOfWord word 1, byteOfWord word 2, byteOfWord word 3] with
    | .ok (i, _) => some i
    | .error _ => none
  else none

end Sys2Proof
end

