-- ==== Sys2Proof/Machine/State.lean ====
section
/-! DEFINITION. The state of the BCU (10_state.md R20), the host's script beside it, why a step can stop, and the
state after hardware reset (10_state.md R43). -/

namespace Sys2Proof.Machine

/-- The in-flight command latch while it is not empty (10_state.md R40). -/
structure InFlight where
  /-- the command word being executed -/
  word : Word
  /-- the unit steps remaining before completion (60_exceptions.md R266) -/
  remaining : Nat
deriving DecidableEq, Repr

/-- Everything the spec gives the machine (10_state.md R20), and the model's own two fields for the host. CMD
holds no value (R22) and IRQ is not stored (R41). STATUS.BUSY is the latch being held (R24, R40). -/
structure State where
  /-- STATUS.DONE (10_state.md R25) -/
  done : Bool
  /-- STATUS.CTXV (10_state.md R26) -/
  ctxv : Bool
  /-- STATUS.OVR (10_state.md R27) -/
  ovr : Bool
  /-- STATUS.RESULT (10_state.md R28) -/
  result : BitVec 4
  /-- CTRL.IE (10_state.md R29) -/
  ie : Bool
  /-- CFG0 (10_state.md R30) -/
  cfg0 : Word
  /-- CFG1 (10_state.md R31) -/
  cfg1 : Word
  /-- CFG2 (10_state.md R32) -/
  cfg2 : Word
  /-- TILE[0..15] (10_state.md R34) -/
  tile : Vector Word 16
  /-- BLOCK[0..15] (10_state.md R35) -/
  block : Vector Byte 16
  /-- ENDP (10_state.md R36) -/
  endp : Word
  /-- SEL0..SEL3 (10_state.md R37) -/
  sel : Vector Word 4
  /-- ERR (10_state.md R38) -/
  err : Word
  /-- OUT[0..15] (10_state.md R39) -/
  out : Vector Word 16
  /-- the in-flight command latch, `none` when empty (10_state.md R40) -/
  latch : Option InFlight
  /-- the model's own: what happens at the BCU from here on, first event first (entry 1) -/
  host : List HostOp
  /-- the model's own: the words the host has read, newest first (entry 12) -/
  rdata : List Word
deriving DecidableEq, Repr

/-- Why a step faults: the host's access, never a command. -/
inductive Fault where
  /-- A narrow or misaligned access, raised by the access to the window: "answered with a bus error", "A model
  treats such an access as a fault of the host program" (20_memory.md R55). Safe: the model stops where the
  host's platform would take its own exception. -/
  | busError
  /-- An access to an address outside the 256-byte window, raised by the bus decoder: the BCU has no other
  addressable state (20_memory.md R50, R51). Safe: the model stops. -/
  | outsideWindow
deriving DecidableEq, Repr

/-- Why a step is refused. -/
inductive Refusal where
  /-- An instruction without a meaning, raised by an arm of `exec`. Safe. No arm of this model raises it. -/
  | notModelled (mnemonic : String)
deriving DecidableEq, Repr

/-- The machine right after hardware reset (10_state.md R43, 70_reset_and_hazards.md R291), with a host that has
nothing to do. -/
def State.reset : State where
  done := false
  ctxv := false
  ovr := false
  result := 0
  ie := false
  cfg0 := 0x00043604
  cfg1 := 0x000040FF
  cfg2 := 0x01010101
  tile := Vector.replicate 16 0
  block := Vector.replicate 16 0
  endp := 0
  sel := Vector.replicate 4 0
  err := 0
  out := Vector.replicate 16 0
  latch := none
  host := []
  rdata := []

end Sys2Proof.Machine
end

