-- ==== Sys2Proof/Machine/Flags.lean ====
section
/-! DEFINITION. The result codes (60_exceptions.md R260), the STATUS and CTRL words as the host reads them
(10_state.md R23, R29) and the interrupt level (R41). The BCU has no other flag (R42). -/

namespace Sys2Proof.Machine

/-- The named result codes of 60_exceptions.md R260. -/
inductive ResultCode where
  | success | outOfMemory | badParameter | badContext | initializationFailed | invalidInput
deriving DecidableEq, Repr

/-- The numeric values of 60_exceptions.md R260. -/
def ResultCode.code : ResultCode → BitVec 4
  | .success => 0
  | .outOfMemory => 1
  | .badParameter => 2
  | .badContext => 3
  | .initializationFailed => 4
  | .invalidInput => 5

/-- The first check that fails decides (60_exceptions.md R262): `b` counts only where `a` is Success. -/
def ResultCode.andThen (a b : ResultCode) : ResultCode := if a = .success then b else a

/-- STATUS.BUSY: a command is in flight (10_state.md R24, R40; entry 3). -/
def State.busy (s : State) : Bool := s.latch.isSome

/-- STATUS as the host reads it; bits 7:4 and 31:12 are 0 (10_state.md R23). -/
def State.statusWord (s : State) : Word :=
  BitVec.ofNat 32 (s.busy.toNat + 2 * s.done.toNat + 4 * s.ctxv.toNat + 8 * s.ovr.toNat + 256 * s.result.toNat)

/-- CTRL as the host reads it; bits 31:1 are 0 (10_state.md R29). -/
def State.ctrlWord (s : State) : Word := BitVec.ofNat 32 s.ie.toNat

/-- The interrupt output, the level CTRL.IE and STATUS.DONE (10_state.md R41; 60_exceptions.md R267). -/
def State.irq (s : State) : Bool := s.ie && s.done

end Sys2Proof.Machine
end

