-- ==== Sys2Proof/Machine/Bits.lean ====
section
/-! DEFINITION. Bit fields of unsigned numbers (00_scope.md R7). -/

namespace Sys2Proof.Machine

/-- `v[hi:lo]` (00_scope.md R7). -/
def slice (hi lo v : Nat) : Nat := v / 2 ^ lo % 2 ^ (hi + 1 - lo)

/-- Field `p` of a number cut into fields of `w` bits, field 0 the least significant: `v[w*p+w-1 : w*p]`. -/
def digit (w v p : Nat) : Nat := v / 2 ^ (w * p) % 2 ^ w

/-- The number whose fields of `w` bits are `l`, the first the least significant: the sum over p of
`l[p] << (w*p)`, each entry cut to `w` bits. -/
def gather (w : Nat) (l : List Nat) : Nat := l.foldr (fun d acc => d % 2 ^ w + 2 ^ w * acc) 0

/-- `v` with its field of `w` bits at bit `lo` set to `f`. -/
def setField (lo w v f : Nat) : Nat := v - slice (lo + w - 1) lo v * 2 ^ lo + f * 2 ^ lo

end Sys2Proof.Machine
end

