-- ==== Sys2Proof/Machine/Operands.lean ====
section
/-! DEFINITION. How commands read and form the registers they use (30_encoding.md R85): fields of CFG0..CFG2,
pixels, endpoints, selector nibbles, block bytes (10_state.md R30 to R39). -/

namespace Sys2Proof.Machine

/-! ## Configuration fields (10_state.md R30, R31, R32) -/

/-- CFG0.FORMAT, bits 2:0. -/
def cfgFormat (cfg0 : Word) : Nat := slice 2 0 cfg0.toNat
/-- CFG0.PERCEPTUAL, bit 3. -/
def cfgPerceptual (cfg0 : Word) : Nat := slice 3 3 cfg0.toNat
/-- CFG0.BC1_MODE, bits 5:4. -/
def cfgBc1Mode (cfg0 : Word) : Nat := slice 5 4 cfg0.toNat
/-- CFG0.BC1_USE3, bit 6. -/
def cfgUse3 (cfg0 : Word) : Nat := slice 6 6 cfg0.toNat
/-- CFG0.BC1_USE3BLACK, bit 7. -/
def cfgUse3Black (cfg0 : Word) : Nat := slice 7 7 cfg0.toNat
/-- CFG0.UBER, bits 10:8. -/
def cfgUber (cfg0 : Word) : Nat := slice 10 8 cfg0.toNat
/-- CFG0.BC4_RADIUS, bits 15:12. -/
def cfgRadius (cfg0 : Word) : Nat := slice 15 12 cfg0.toNat
/-- CFG0.CH0, bits 17:16. -/
def cfgCh0 (cfg0 : Word) : Nat := slice 17 16 cfg0.toNat
/-- CFG0.CH1, bits 19:18. -/
def cfgCh1 (cfg0 : Word) : Nat := slice 19 18 cfg0.toNat
/-- CFG1.BC7_MODE_MASK, bits 7:0. -/
def cfgModeMask (cfg1 : Word) : Nat := slice 7 0 cfg1.toNat
/-- CFG1.BC7_MAX_PART, bits 14:8. -/
def cfgMaxPart (cfg1 : Word) : Nat := slice 14 8 cfg1.toNat
/-- CFG2.WR, WG, WB, WA: byte `c` of CFG2 for channel `c`. -/
def cfgWeight (cfg2 : Word) (c : Nat) : Nat := digit 8 cfg2.toNat c

/-! ## Pixels (10_state.md R34, R39; 20_memory.md R53) -/

/-- An RGBA8 pixel; each channel is 0..255. -/
structure Pixel where
  r : Nat
  g : Nat
  b : Nat
  a : Nat
deriving DecidableEq, Repr, Inhabited

/-- A pixel register: R in byte lane 0, G in 1, B in 2, A in 3. -/
def pixelOfWord (w : Word) : Pixel :=
  ⟨digit 8 w.toNat 0, digit 8 w.toNat 1, digit 8 w.toNat 2, digit 8 w.toNat 3⟩

/-- The word of a pixel register. -/
def wordOfPixel (p : Pixel) : Word := BitVec.ofNat 32 (gather 8 [p.r, p.g, p.b, p.a])

/-- Channel `c` of a pixel: 0 = R, 1 = G, 2 = B, 3 = A (00_scope.md R8; 10_state.md R30). -/
def channel (p : Pixel) : Nat → Nat
  | 0 => p.r
  | 1 => p.g
  | 2 => p.b
  | _ => p.a

/-- TILE[p] as a pixel. -/
def tilePixel (tile : Vector Word 16) (p : Fin 16) : Pixel := pixelOfWord tile[p]

/-- The values TILE[p].CH for p = 0..15 of one channel (44_quantizer.md R210). -/
def tileChannel (tile : Vector Word 16) (ch : Nat) : Vector Nat 16 :=
  Vector.ofFn fun p => channel (tilePixel tile p) ch

/-- The OUT registers that hold a decoded tile (10_state.md R39). -/
def outWords (d : Vector Pixel 16) : Vector Word 16 := d.map wordOfPixel

/-! ## Endpoints (10_state.md R36) -/

/-- ENDP[15:0], the BC1 endpoint c0. -/
def endpC0 (endp : Word) : Nat := slice 15 0 endp.toNat
/-- ENDP[31:16], the BC1 endpoint c1. -/
def endpC1 (endp : Word) : Nat := slice 31 16 endp.toNat
/-- Byte `j` of ENDP: e0 and e1 of channel 0, then e0 and e1 of channel 1. -/
def endpByte (endp : Word) (j : Nat) : Nat := digit 8 endp.toNat j
/-- ENDP of a BC1 block. -/
def endpOfBc1 (c0 c1 : Nat) : Word := BitVec.ofNat 32 (gather 16 [c0, c1])
/-- ENDP of a BC4 block, bits 31:16 zero. -/
def endpOfBc4 (e0 e1 : Nat) : Word := BitVec.ofNat 32 (gather 8 [e0, e1])
/-- ENDP of a BC5 block. -/
def endpOfBc5 (a0 a1 b0 b1 : Nat) : Word := BitVec.ofNat 32 (gather 8 [a0, a1, b0, b1])

/-! ## Selectors (10_state.md R37) -/

/-- SEL(k, p), the selector nibble of channel `k` for pixel `p`. -/
def selNibble (sel : Vector Word 4) (k : Fin 2) (p : Fin 16) : Nat :=
  digit 4 (sel[2 * k.val + p.val / 8]).toNat (p.val % 8)

/-- The selectors of one channel, pixel 0 first. -/
def selChannel (sel : Vector Word 4) (k : Fin 2) : Vector Nat 16 := Vector.ofFn fun p => selNibble sel k p

/-- SEL0..SEL3 holding channel 0 and channel 1. -/
def selWords (ch0 ch1 : Vector Nat 16) : Vector Word 4 :=
  #v[BitVec.ofNat 32 (gather 4 (ch0.toList.take 8)), BitVec.ofNat 32 (gather 4 (ch0.toList.drop 8)),
     BitVec.ofNat 32 (gather 4 (ch1.toList.take 8)), BitVec.ofNat 32 (gather 4 (ch1.toList.drop 8))]

/-- Sixteen zero selectors. -/
def noSelectors : Vector Nat 16 := Vector.replicate 16 0

/-! ## The block buffer (10_state.md R35; 30_encoding.md R75, R77, R79) -/

/-- BLOCK[0..7] as a 64-bit little-endian number. -/
def blockLow (b : Vector Byte 16) : Nat := gather 8 ((b.toList.take 8).map BitVec.toNat)
/-- BLOCK[8..15] as a 64-bit little-endian number. -/
def blockHigh (b : Vector Byte 16) : Nat := gather 8 ((b.toList.drop 8).map BitVec.toNat)
/-- BLOCK[0..15] as a 128-bit little-endian number. -/
def blockBits (b : Vector Byte 16) : Nat := gather 8 (b.toList.map BitVec.toNat)

/-- The block buffer whose halves are the 64-bit numbers `low` and `high`. -/
def blockOf (low high : Nat) : Vector Byte 16 :=
  Vector.ofFn fun i => BitVec.ofNat 8 (if i.val < 8 then digit 8 low i.val else digit 8 high (i.val - 8))

/-- Word `k` of the block buffer as the host reads it: BLOCK[4k] in bits 7:0 (10_state.md R35). -/
def blockWord (b : Vector Byte 16) (k : Fin 4) : Word :=
  b[4 * k.val + 3] ++ b[4 * k.val + 2] ++ b[4 * k.val + 1] ++ b[4 * k.val]

/-- The block buffer after the host writes word `k`. -/
def setBlockWord (b : Vector Byte 16) (k : Fin 4) (v : Word) : Vector Byte 16 :=
  Vector.ofFn fun i => if i.val / 4 = k.val then BitVec.ofNat 8 (digit 8 v.toNat (i.val % 4)) else b[i]

/-- Sum over the 16 pixels (44_quantizer.md R210). -/
def sumPixels (f : Fin 16 → Nat) : Nat := ((List.finRange 16).map f).sum

end Sys2Proof.Machine
end

