-- ==== Sys2Proof/Machine/Ops.lean ====
section
/-! DEFINITION. The shared operations: the register window (20_memory.md), issue and completion of a command
(60_exceptions.md R262 to R266), ZeroData (10_state.md R44), hardware reset (70_reset_and_hazards.md R290). -/

namespace Sys2Proof.Machine

/-! ## Named updates -/

def State.setTile (t : Vector Word 16) (s : State) : State := { s with tile := t }
def State.setBlock (b : Vector Byte 16) (s : State) : State := { s with block := b }
def State.setEndp (e : Word) (s : State) : State := { s with endp := e }
def State.setSel (v : Vector Word 4) (s : State) : State := { s with sel := v }
def State.setErr (e : Nat) (s : State) : State := { s with err := BitVec.ofNat 32 e }
def State.setOut (d : Vector Pixel 16) (s : State) : State := { s with out := outWords d }
def State.setCtxv (b : Bool) (s : State) : State := { s with ctxv := b }
def State.setCfg0 (v : Word) (s : State) : State := { s with cfg0 := v }
def State.setCfg1 (v : Word) (s : State) : State := { s with cfg1 := v }
def State.setCfg2 (v : Word) (s : State) : State := { s with cfg2 := v }
def State.setLatch (l : Option InFlight) (s : State) : State := { s with latch := l }
def State.setHost (h : List HostOp) (s : State) : State := { s with host := h }

/-- The host receives a word it has read. -/
def State.pushRead (v : Word) (s : State) : State := { s with rdata := v :: s.rdata }

/-- A dropped write sets OVR and changes nothing else (20_memory.md R65; 60_exceptions.md R270). -/
def dropWrite (s : State) : State := { s with ovr := true }

/-- A host write to STATUS clears DONE if bit 1 of the value is 1 and OVR if bit 3 is 1 (10_state.md R23). -/
def ackStatus (v : Word) (s : State) : State :=
  { s with done := s.done && !v.getLsbD 1, ovr := s.ovr && !v.getLsbD 3 }

/-- A host write to CTRL sets IE to bit 0 (10_state.md R29). -/
def setCtrl (v : Word) (s : State) : State := { s with ie := v.getLsbD 0 }

/-- ZeroData (10_state.md R44). -/
def zeroData (s : State) : State :=
  { s with
    tile := Vector.replicate 16 0, block := Vector.replicate 16 0, endp := 0,
    sel := Vector.replicate 4 0, err := 0, out := Vector.replicate 16 0 }

/-- Hardware reset: every register takes its reset value and a command in flight is abandoned
(70_reset_and_hazards.md R290). The host's script and what it has read are not the BCU's (entry 15). -/
def hardReset (s : State) : State := { State.reset with host := s.host, rdata := s.rdata }

/-! ## Command life cycle -/

/-- The registers a command may read, at its issue (30_encoding.md R85). -/
def inputsOf (s : State) : Config.Inputs :=
  { ctxv := s.ctxv, cfg0 := s.cfg0, cfg1 := s.cfg1, cfg2 := s.cfg2,
    tile := s.tile, block := s.block, endp := s.endp, sel := s.sel }

/-- BCU_LATENCY, at least 1 (60_exceptions.md R265; entry 4). -/
def bcuLatency (w : Word) (s : State) : Nat := Config.bcuLatencyExtra w (inputsOf s) + 1

/-- Issue (60_exceptions.md R265): BUSY = 1, DONE = 0, the word and a latency in the latch. -/
def issue (w : Word) (s : State) : State :=
  { s with done := false, latch := some ⟨w, bcuLatency w s⟩ }

/-- Completion (60_exceptions.md R264, R266): RESULT written, DONE set, BUSY cleared. -/
def finish (c : ResultCode) (s : State) : State :=
  { s with result := c.code, done := true, latch := none }

/-- How every command ends. With Success its effect `t` is committed together with STATUS (60_exceptions.md
R266); with another code nothing but STATUS changes (R264). This stands where taking an exception stands in a
processor: the BCU has no trap (R271). -/
def conclude (c : ResultCode) (s t : State) : Host.Outcome State Fault Refusal :=
  .next (if c = .success then finish .success t else finish c s)

/-- Steps 2 and 3 of the common checks for a data command of format `f` (60_exceptions.md R262). -/
def dataChecks (f : Fmt) (s : State) : ResultCode :=
  if s.ctxv = false then .badContext
  else if cfgFormat s.cfg0 ≠ f.code then .badParameter
  else .success

/-- Step 2 of the common checks for INIT (60_exceptions.md R262). -/
def noContextCheck (s : State) : ResultCode := if s.ctxv = true then .badContext else .success

/-- Step 2 of the common checks for DESTROY and RESET (60_exceptions.md R262). -/
def contextCheck (s : State) : ResultCode := if s.ctxv = false then .badContext else .success

/-! ## The register window -/

/-- The register at an offset that is a multiple of 4 below 256; `none` is a reserved offset (20_memory.md R50,
R56). -/
def regAt (o : Nat) : Option Reg :=
  if o = 0x000 then some .cmd
  else if o = 0x004 then some .status
  else if o = 0x008 then some .ctrl
  else if o = 0x010 then some .cfg0
  else if o = 0x014 then some .cfg1
  else if o = 0x018 then some .cfg2
  else if h : 0x040 ≤ o ∧ o < 0x080 then some (.tile ⟨(o - 0x040) / 4, by omega⟩)
  else if h : 0x080 ≤ o ∧ o < 0x090 then some (.blockWord ⟨(o - 0x080) / 4, by omega⟩)
  else if o = 0x090 then some .endp
  else if h : 0x098 ≤ o ∧ o < 0x0A8 then some (.sel ⟨(o - 0x098) / 4, by omega⟩)
  else if o = 0x0A8 then some .err
  else if h : 0x0C0 ≤ o ∧ o < 0x100 then some (.out ⟨(o - 0x0C0) / 4, by omega⟩)
  else none

/-- The offset of a register (20_memory.md R50). -/
def regOffset : Reg → Nat
  | .cmd => 0x000
  | .status => 0x004
  | .ctrl => 0x008
  | .cfg0 => 0x010
  | .cfg1 => 0x014
  | .cfg2 => 0x018
  | .tile p => 0x040 + 4 * p.val
  | .blockWord k => 0x080 + 4 * k.val
  | .endp => 0x090
  | .sel k => 0x098 + 4 * k.val
  | .err => 0x0A8
  | .out p => 0x0C0 + 4 * p.val

/-- What the host reads at a register (10_state.md R22 to R39). -/
def readReg (s : State) : Reg → Word
  | .cmd => 0
  | .status => s.statusWord
  | .ctrl => s.ctrlWord
  | .cfg0 => s.cfg0
  | .cfg1 => s.cfg1
  | .cfg2 => s.cfg2
  | .tile p => s.tile[p]
  | .blockWord k => blockWord s.block k
  | .endp => s.endp
  | .sel k => s.sel[k]
  | .err => s.err
  | .out p => s.out[p]

/-- What the host reads at a multiple of 4 in the window; a reserved offset reads 0 (20_memory.md R56). -/
def readOffset (s : State) (o : Nat) : Word :=
  match regAt o with
  | none => 0
  | some r => readReg s r

/-- The window seen as bytes: byte lane `o mod 4` of the register there (20_memory.md R52). -/
def windowByte (s : State) (o : Nat) : Byte :=
  BitVec.ofNat 8 (digit 8 (readOffset s (o - o % 4)).toNat (o % 4))

/-- Registers whose writes take effect even while BUSY = 1 (20_memory.md R65). -/
def writableWhileBusy : Reg → Bool
  | .status => true
  | .ctrl => true
  | .cmd => false
  | .cfg0 => false
  | .cfg1 => false
  | .cfg2 => false
  | .tile _ => false
  | .blockWord _ => false
  | .endp => false
  | .sel _ => false
  | .err => false
  | .out _ => false

/-- A host write that is not dropped (10_state.md R22 to R39): CMD issues, STATUS is write-1-to-clear, CFG0..CFG2
keep their values while CTXV = 1 (R33), ERR and OUT ignore it (20_memory.md R58). -/
def storeReg (r : Reg) (v : Word) (s : State) : State :=
  match r with
  | .cmd => issue v s
  | .status => ackStatus v s
  | .ctrl => setCtrl v s
  | .cfg0 => if s.ctxv then s else s.setCfg0 v
  | .cfg1 => if s.ctxv then s else s.setCfg1 v
  | .cfg2 => if s.ctxv then s else s.setCfg2 v
  | .tile p => s.setTile (s.tile.set p v)
  | .blockWord k => s.setBlock (setBlockWord s.block k v)
  | .endp => s.setEndp v
  | .sel k => s.setSel (s.sel.set k v)
  | .err => s
  | .out _ => s

/-- A host write to a register (20_memory.md R57, R65). -/
def writeReg (r : Reg) (v : Word) (s : State) : State :=
  if s.busy && !writableWhileBusy r then dropWrite s else storeReg r v s

/-- A host write at a multiple of 4 in the window; a reserved offset ignores it (20_memory.md R56). -/
def writeOffset (o : Nat) (v : Word) (s : State) : State :=
  match regAt o with
  | none => s
  | some r => writeReg r v s

/-- The offset an address has in the window, if it is in it (20_memory.md R50; entry 6). -/
def windowOffset : BusAddr → Option Nat
  | .window o => if offsetInWindow o then some o else none
  | .absolute a =>
    if Config.bcuBase ≤ a ∧ offsetInWindow (a - Config.bcuBase) then some (a - Config.bcuBase) else none

/-- One host access: outside the window it does not reach the BCU, a narrow or misaligned one is a bus error
without effect (20_memory.md R55), any other has the effect `f` of its offset. -/
def access (w : Width) (a : BusAddr) (f : Nat → State) : Host.Outcome State Fault Refusal :=
  match windowOffset a with
  | none => .fault .outsideWindow
  | some o => if acceptedAccess w o then .next (f o) else .fault .busError

end Sys2Proof.Machine
end

