-- ==== Sys2Proof/Machine/Context.lean ====
section
/-! DEFINITION. INIT, DESTROY and RESET (40_context.md R121 to R124). -/

namespace Sys2Proof.Machine

/-- Validate(), its checks in the spec's order (40_context.md R124). -/
def validate (cfg0 cfg1 cfg2 : Word) : ResultCode :=
  if slice 11 11 cfg0.toNat ≠ 0 ∨ slice 31 20 cfg0.toNat ≠ 0 ∨ slice 31 15 cfg1.toNat ≠ 0 then .badParameter
  else if cfgUber cfg0 = 7 then .badParameter
  else if cfgMaxPart cfg1 = 0 ∨ cfgMaxPart cfg1 > 64 then .badParameter
  else if cfgPerceptual cfg0 = 1 ∧
      (cfgWeight cfg2 0 = 0 ∨ cfgWeight cfg2 1 = 0 ∨ cfgWeight cfg2 2 = 0 ∨ cfgWeight cfg2 3 = 0) then
    .badParameter
  else if cfgFormat cfg0 ∉ [1, 2, 3, 4] then .initializationFailed
  else if cfgUse3Black cfg0 = 1 ∧ cfgUse3 cfg0 = 0 then .initializationFailed
  else if cfgFormat cfg0 = 4 ∧ cfgModeMask cfg1 = 0 then .initializationFailed
  else .success

/-- INIT (40_context.md R121). -/
def execInit (s : State) : Host.Outcome State Fault Refusal :=
  conclude ((noContextCheck s).andThen (validate s.cfg0 s.cfg1 s.cfg2)) s ((zeroData s).setCtxv true)

/-- DESTROY (40_context.md R122). -/
def execDestroy (s : State) : Host.Outcome State Fault Refusal :=
  conclude (contextCheck s) s ((zeroData s).setCtxv false)

/-- RESET (40_context.md R123). -/
def execReset (s : State) : Host.Outcome State Fault Refusal :=
  conclude (contextCheck s) s (zeroData s)

end Sys2Proof.Machine
end

