-- ==== Sys2Proof/Machine/Bc1.lean ====
section
/-! DEFINITION. The BC1 format (30_encoding.md R75, R76; 41_bc1.md R141 to R146). -/

namespace Sys2Proof.Machine

/-! ## Fields of a block, given as its 64-bit little-endian number (30_encoding.md R75; 41_bc1.md R141) -/

/-- bc1_c0(B). -/
def bc1C0 (b : Nat) : Nat := slice 15 0 b
/-- bc1_c1(B). -/
def bc1C1 (b : Nat) : Nat := slice 31 16 b
/-- bc1_sel(B, p). -/
def bc1Sel (b : Nat) (p : Nat) : Nat := digit 2 (slice 63 32 b) p
/-- The selectors of a block, pixel 0 first. -/
def bc1Sels (b : Nat) : Vector Nat 16 := Vector.ofFn fun p => bc1Sel b p.val
/-- The block of two endpoints and sixteen selectors (41_bc1.md R147). -/
def bc1Pack (c0 c1 : Nat) (s : Vector Nat 16) : Nat := gather 16 [c0, c1] + gather 2 s.toList * 2 ^ 32

/-! ## Colours (41_bc1.md R142 to R144) -/

/-- Q5, round to nearest. -/
def q5 (v : Nat) : Nat := (v * 31 + 127) / 255
/-- Q6, round to nearest. -/
def q6 (v : Nat) : Nat := (v * 63 + 127) / 255
/-- Q565: red in bits 15:11, green in 10:5, blue in 4:0 (30_encoding.md R76). -/
def q565 (r g b : Nat) : Nat := q5 r <<< 11 ||| q6 g <<< 5 ||| q5 b
/-- X5, bit replication. -/
def x5 (v : Nat) : Nat := v <<< 3 ||| v >>> 2
/-- X6, bit replication. -/
def x6 (v : Nat) : Nat := v <<< 2 ||| v >>> 4
/-- (Unpack565(c), 255). -/
def unpack565 (c : Nat) : Pixel := ⟨x5 (slice 15 11 c), x6 (slice 10 5 c), x5 (slice 4 0 c), 255⟩

/-! ## The palette (41_bc1.md R145, R146) -/

/-- 4-colour mode: c0 > c1 as unsigned 16-bit numbers (41_bc1.md R145). -/
def fourColour (c0 c1 : Nat) : Bool := c0 > c1

/-- The entry whose colour channels are `f` of the endpoints' channels, opaque. -/
def mixPixel (f : Nat → Nat → Nat) (e0 e1 : Pixel) : Pixel := ⟨f e0.r e1.r, f e0.g e1.g, f e0.b e1.b, 255⟩

/-- A vendor's colour as an opaque entry. -/
def opaquePixel (c : Config.Rgb) : Pixel := ⟨c.r.toNat, c.g.toNat, c.b.toNat, 255⟩

/-- The colours of P[2] and P[3] in vendor mode 1, 2 or 3 (41_bc1.md R146; entry 8). -/
def vendorPair (mode c0 c1 : Nat) : Config.Rgb × Config.Rgb :=
  match mode with
  | 1 => Config.bc1Pal1 (BitVec.ofNat 16 c0) (BitVec.ofNat 16 c1)
  | 2 => Config.bc1Pal2 (BitVec.ofNat 16 c0) (BitVec.ofNat 16 c1)
  | _ => Config.bc1Pal3 (BitVec.ofNat 16 c0) (BitVec.ofNat 16 c1)

/-- P[2] (41_bc1.md R146). -/
def bc1Entry2 (mode c0 c1 : Nat) : Pixel :=
  if mode = 0 then
    if fourColour c0 c1 then mixPixel (fun x y => (2 * x + y) / 3) (unpack565 c0) (unpack565 c1)
    else mixPixel (fun x y => (x + y) / 2) (unpack565 c0) (unpack565 c1)
  else opaquePixel (vendorPair mode c0 c1).1

/-- P[3] (41_bc1.md R146): transparent black in 3-colour mode, whatever the mode. -/
def bc1Entry3 (mode c0 c1 : Nat) : Pixel :=
  if fourColour c0 c1 then
    if mode = 0 then mixPixel (fun x y => (x + 2 * y) / 3) (unpack565 c0) (unpack565 c1)
    else opaquePixel (vendorPair mode c0 c1).2
  else ⟨0, 0, 0, 0⟩

/-- BC1Pal(c0, c1) under CFG0.BC1_MODE = `mode` (41_bc1.md R146). -/
def bc1Pal (mode c0 c1 : Nat) : List Pixel :=
  [unpack565 c0, unpack565 c1, bc1Entry2 mode c0 c1, bc1Entry3 mode c0 c1]

/-- Entry `s` of a palette. -/
def entry {α : Type} [Inhabited α] (pal : List α) (s : Nat) : α := pal.getD s default

/-- The pixels a BC1 block decodes to (41_bc1.md R148). -/
def bc1Decode (mode b : Nat) : Vector Pixel 16 :=
  Vector.ofFn fun p => entry (bc1Pal mode (bc1C0 b) (bc1C1 b)) (bc1Sel b p.val)

end Sys2Proof.Machine
end

