-- ==== Sys2Proof/Machine/Bc4.lean ====
section
/-! DEFINITION. The BC4 and BC5 formats (30_encoding.md R77, R78; 42_bc4_bc5.md R161 to R165). -/

namespace Sys2Proof.Machine

/-! ## Fields of a block, given as its 64-bit little-endian number (30_encoding.md R77; 42_bc4_bc5.md R161) -/

/-- bc4_e0(B). -/
def bc4E0 (b : Nat) : Nat := slice 7 0 b
/-- bc4_e1(B). -/
def bc4E1 (b : Nat) : Nat := slice 15 8 b
/-- bc4_sel(B, p). -/
def bc4Sel (b : Nat) (p : Nat) : Nat := digit 3 (slice 63 16 b) p
/-- The selectors of a block, pixel 0 first. -/
def bc4Sels (b : Nat) : Vector Nat 16 := Vector.ofFn fun p => bc4Sel b p.val
/-- Bc4Bytes(e0, e1, s) as a 64-bit little-endian number (42_bc4_bc5.md R166). -/
def bc4Pack (e0 e1 : Nat) (s : Vector Nat 16) : Nat := gather 8 [e0, e1] + gather 3 s.toList * 2 ^ 16

/-! ## The palette (42_bc4_bc5.md R162 to R164) -/

/-- The 8-level palette (42_bc4_bc5.md R163). -/
def bc4Pal8 (e0 e1 : Nat) : List Nat :=
  [e0, e1] ++ [1, 2, 3, 4, 5, 6].map fun i => ((7 - i) * e0 + i * e1) / 7

/-- The 6-level palette with the sentinels 0 and 255 (42_bc4_bc5.md R164). -/
def bc4Pal6 (e0 e1 : Nat) : List Nat :=
  [e0, e1] ++ ([1, 2, 3, 4].map fun i => ((5 - i) * e0 + i * e1) / 5) ++ [0, 255]

/-- BC4Pal(e0, e1): 8 levels when e0 > e1, else 6 (42_bc4_bc5.md R162). -/
def bc4Pal (e0 e1 : Nat) : List Nat := if e0 > e1 then bc4Pal8 e0 e1 else bc4Pal6 e0 e1

/-- The channel values v[p] a BC4 block decodes to (42_bc4_bc5.md R165). -/
def bc4Values (b : Nat) : Vector Nat 16 :=
  Vector.ofFn fun p => entry (bc4Pal (bc4E0 b) (bc4E1 b)) (bc4Sel b p.val)

/-- The pixels a BC4 block decodes to (42_bc4_bc5.md R165). -/
def bc4Decode (b : Nat) : Vector Pixel 16 := (bc4Values b).map fun v => ⟨v, 0, 0, 255⟩

/-- The pixels a BC5 block of halves `a` and `b` decodes to (42_bc4_bc5.md R165). -/
def bc5Decode (a b : Nat) : Vector Pixel 16 :=
  Vector.ofFn fun p => ⟨(bc4Values a)[p], (bc4Values b)[p], 0, 255⟩

end Sys2Proof.Machine
end

