-- ==== Sys2Proof/Machine/Bc7.lean ====
section
/-! DEFINITION. The BC7 format (30_encoding.md R79 to R82; 43_bc7.md R181 to R194). A block is its 128-bit
little-endian number (30_encoding.md R79). -/

namespace Sys2Proof.Machine

/-! ## The partition and anchor tables (43_bc7.md R187, R188; entry 9) -/

/-- BC7_A2[r], 1..15. -/
def bc7A2 (r : Nat) : Nat := (Config.bc7A2 r).val + 1
/-- BC7_A3a[r], 1..15. -/
def bc7A3a (r : Nat) : Nat := (Config.bc7A3a r).val + 1
/-- BC7_A3b[r], 1..15 and not BC7_A3a[r]. -/
def bc7A3b (r : Nat) : Nat :=
  if (Config.bc7A3b r).val + 1 < bc7A3a r then (Config.bc7A3b r).val + 1 else (Config.bc7A3b r).val + 2
/-- BC7_P2[r][p]: pixel 0 in subset 0, the anchor in subset 1. -/
def bc7P2 (r p : Nat) : Nat :=
  if p = 0 then 0 else if p = bc7A2 r then 1 else (Config.bc7P2 r p).val
/-- BC7_P3[r][p]: pixel 0 in subset 0, the anchors in subsets 1 and 2. -/
def bc7P3 (r p : Nat) : Nat :=
  if p = 0 then 0 else if p = bc7A3a r then 1 else if p = bc7A3b r then 2 else (Config.bc7P3 r p).val

/-! ## Modes (30_encoding.md R79, R80; 43_bc7.md R182) -/

/-- The kinds of p-bits (43_bc7.md R184). -/
inductive PBits where
  | absent | perEndpoint | perSubset
deriving DecidableEq, Repr

/-- One row of the mode table (30_encoding.md R80). -/
structure Bc7Mode where
  ns : Nat
  pb : Nat
  rb : Nat
  isb : Nat
  cb : Nat
  ab : Nat
  pbits : PBits
  ib : Nat
  ib2 : Nat
deriving DecidableEq, Repr

/-- The eight modes (30_encoding.md R80). -/
def bc7Mode : Nat → Bc7Mode
  | 0 => ⟨3, 4, 0, 0, 4, 0, .perEndpoint, 3, 0⟩
  | 1 => ⟨2, 6, 0, 0, 6, 0, .perSubset, 3, 0⟩
  | 2 => ⟨3, 6, 0, 0, 5, 0, .absent, 2, 0⟩
  | 3 => ⟨2, 6, 0, 0, 7, 0, .perEndpoint, 2, 0⟩
  | 4 => ⟨1, 0, 2, 1, 5, 6, .absent, 2, 3⟩
  | 5 => ⟨1, 0, 2, 0, 7, 8, .absent, 2, 2⟩
  | 6 => ⟨1, 0, 0, 0, 7, 7, .perEndpoint, 4, 0⟩
  | _ => ⟨2, 6, 0, 0, 5, 5, .perEndpoint, 2, 0⟩

/-- The mode: the lowest 1 bit of BLOCK[0], if there is one (43_bc7.md R182). -/
def bc7ModeOf (b : Nat) : Option Nat := (List.range 8).find? fun m => b / 2 ^ m % 2 = 1

/-! ## Fields (30_encoding.md R81; 43_bc7.md R181, R183, R184, R189) -/

/-- The bit reader: the values of consecutive fields of the given widths from position `pos` on, each with its
first bit least significant (43_bc7.md R181). -/
def readFields (b : Nat) : Nat → List Nat → List Nat
  | _, [] => []
  | pos, w :: ws => b / 2 ^ pos % 2 ^ w :: readFields b (pos + w) ws

/-- Subset of pixel `p` (43_bc7.md R187). -/
def bc7Subset (ns part p : Nat) : Nat :=
  match ns with
  | 2 => bc7P2 part p
  | 3 => bc7P3 part p
  | _ => 0

/-- The anchor pixel of subset `s` (43_bc7.md R188). -/
def bc7AnchorOf (ns part s : Nat) : Nat :=
  match ns, s with
  | 2, 1 => bc7A2 part
  | 3, 1 => bc7A3a part
  | 3, 2 => bc7A3b part
  | _, _ => 0

/-- anchor(p): `p` is the anchor of its subset (43_bc7.md R188). -/
def bc7IsAnchor (ns part p : Nat) : Bool := p = bc7AnchorOf ns part (bc7Subset ns part p)

/-- How many p-bits a mode has (30_encoding.md R80). -/
def pbitCount (md : Bc7Mode) : Nat :=
  match md.pbits with
  | .absent => 0
  | .perEndpoint => 2 * md.ns
  | .perSubset => md.ns

/-- Widths of the primary indices (43_bc7.md R189). -/
def primaryWidths (md : Bc7Mode) (part : Nat) : List Nat :=
  (List.range 16).map fun p => if bc7IsAnchor md.ns part p then md.ib - 1 else md.ib

/-- Widths of the secondary indices (43_bc7.md R189). -/
def secondaryWidths (md : Bc7Mode) : List Nat :=
  if md.ib2 = 0 then [] else (List.range 16).map fun p => if p = 0 then md.ib2 - 1 else md.ib2

/-- Widths of all fields after the mode bits, in the order of 30_encoding.md R81. -/
def bc7Widths (md : Bc7Mode) (part : Nat) : List Nat :=
  [md.pb, md.rb, md.isb] ++ List.replicate (6 * md.ns) md.cb ++
    List.replicate (if md.ab = 0 then 0 else 2 * md.ns) md.ab ++ List.replicate (pbitCount md) 1 ++
    primaryWidths md part ++ secondaryWidths md

/-- The fields of a block (43_bc7.md R183, R184, R189). Colour endpoints are in the order channel, subset,
endpoint; alpha endpoints and p-bits in the order subset, endpoint. -/
structure Bc7Fields where
  part : Nat
  rot : Nat
  isel : Nat
  colour : List Nat
  alpha : List Nat
  pbits : List Nat
  i1 : List Nat
  i2 : List Nat
deriving DecidableEq, Repr

/-- The partition number, 0 in a mode without partitions (43_bc7.md R183). -/
def bc7PartOf (m b : Nat) : Nat := b / 2 ^ (m + 1) % 2 ^ (bc7Mode m).pb

/-- The parse of 43_bc7.md R183, R184 and R189 in mode `m`, from position m + 1 on. -/
def bc7Parse (m b : Nat) : Bc7Fields :=
  let md := bc7Mode m
  let part := bc7PartOf m b
  let fs := readFields b (m + 1) (bc7Widths md part)
  let nc := 6 * md.ns
  let na := if md.ab = 0 then 0 else 2 * md.ns
  let np := pbitCount md
  { part := part
    rot := fs.getD 1 0
    isel := fs.getD 2 0
    colour := (fs.drop 3).take nc
    alpha := (fs.drop (3 + nc)).take na
    pbits := (fs.drop (3 + nc + na)).take np
    i1 := (fs.drop (3 + nc + na + np)).take 16
    i2 := (fs.drop (3 + nc + na + np + 16)).take 16 }

/-! ## Endpoints (43_bc7.md R184, R185) -/

/-- unq(v, n), bit replication (43_bc7.md R185). -/
def unq (v n : Nat) : Nat := if n = 8 then v else v <<< (8 - n) ||| v >>> (2 * n - 8)

/-- A stored channel value of `n` bits with the p-bit of endpoint `e` of subset `s`, unquantized (43_bc7.md R184,
R185). -/
def withPBit (md : Bc7Mode) (f : Bc7Fields) (s e v n : Nat) : Nat :=
  match md.pbits with
  | .absent => unq v n
  | .perEndpoint => unq (v <<< 1 ||| f.pbits.getD (2 * s + e) 0) (n + 1)
  | .perSubset => unq (v <<< 1 ||| f.pbits.getD s 0) (n + 1)

/-- E[s][e].c for a colour channel `c` in 0..2 (43_bc7.md R183 to R185). -/
def bc7Colour (md : Bc7Mode) (f : Bc7Fields) (s e c : Nat) : Nat :=
  withPBit md f s e (f.colour.getD ((c * md.ns + s) * 2 + e) 0) md.cb

/-- E[s][e].A, 255 in a mode without alpha bits (43_bc7.md R185). -/
def bc7Alpha (md : Bc7Mode) (f : Bc7Fields) (s e : Nat) : Nat :=
  if md.ab = 0 then 255 else withPBit md f s e (f.alpha.getD (2 * s + e) 0) md.ab

/-! ## Pixels (43_bc7.md R186, R190 to R194) -/

/-- The interpolation weights of an index width (43_bc7.md R186). -/
def bc7Weights : Nat → List Nat
  | 2 => [0, 21, 43, 64]
  | 3 => [0, 9, 18, 27, 37, 46, 55, 64]
  | _ => [0, 4, 9, 13, 17, 21, 26, 30, 34, 38, 43, 47, 51, 55, 60, 64]

/-- interp(e0, e1, w) (43_bc7.md R190). -/
def interp (e0 e1 w : Nat) : Nat := ((64 - w) * e0 + w * e1 + 32) >>> 6

/-- The weight an index stands for. -/
def weightAt (width i : Nat) : Nat := (bc7Weights width).getD i 0

/-- The colour weight of pixel `p` (43_bc7.md R191). -/
def colourWeight (md : Bc7Mode) (f : Bc7Fields) (p : Nat) : Nat :=
  if md.ib2 = 0 ∨ f.isel = 0 then weightAt md.ib (f.i1.getD p 0) else weightAt md.ib2 (f.i2.getD p 0)

/-- The alpha weight of pixel `p` (43_bc7.md R191). -/
def alphaWeight (md : Bc7Mode) (f : Bc7Fields) (p : Nat) : Nat :=
  if md.ib2 = 0 ∨ f.isel ≠ 0 then weightAt md.ib (f.i1.getD p 0) else weightAt md.ib2 (f.i2.getD p 0)

/-- Channel rotation (43_bc7.md R192). -/
def rotate (rot : Nat) (x : Pixel) : Pixel :=
  match rot with
  | 0 => x
  | 1 => { x with r := x.a, a := x.r }
  | 2 => { x with g := x.a, a := x.g }
  | _ => { x with b := x.a, a := x.b }

/-- Pixel `p` of a block of mode `md` (43_bc7.md R191, R192). -/
def bc7Pixel (md : Bc7Mode) (f : Bc7Fields) (p : Nat) : Pixel :=
  let s := bc7Subset md.ns f.part p
  let wc := colourWeight md f p
  let mixed : Nat → Nat := fun c => interp (bc7Colour md f s 0 c) (bc7Colour md f s 1 c) wc
  rotate f.rot ⟨mixed 0, mixed 1, mixed 2, interp (bc7Alpha md f s 0) (bc7Alpha md f s 1) (alphaWeight md f p)⟩

/-- BC7Decode(B) (43_bc7.md R195); a block without a mode gives (0, 0, 0, 0) sixteen times (R194). -/
def bc7Decode (b : Nat) : Vector Pixel 16 :=
  match bc7ModeOf b with
  | none => Vector.replicate 16 ⟨0, 0, 0, 0⟩
  | some m => Vector.ofFn fun p => bc7Pixel (bc7Mode m) (bc7Parse m b) p.val

end Sys2Proof.Machine
end

