-- ==== Sys2Proof/Machine/Metric.lean ====
section
/-! DEFINITION. The error metric (44_quantizer.md R210, R211) and the choice of selectors (R212, R213). -/

namespace Sys2Proof.Machine

/-- The weight of channel `c` under CFG0.PERCEPTUAL = `per` (44_quantizer.md R211). -/
def weight (per : Nat) (cfg2 : Word) (c : Nat) : Nat := if per = 1 then cfgWeight cfg2 c else 1

/-- (x - y)^2 (44_quantizer.md R210): the absolute difference, squared. -/
def sqDiff (x y : Nat) : Nat := ((x - y) + (y - x)) ^ 2

/-- The BC1 term of one pixel: R, G and B (44_quantizer.md R210). -/
def rgbTerm (per : Nat) (cfg2 : Word) (d t : Pixel) : Nat :=
  weight per cfg2 0 * sqDiff d.r t.r + weight per cfg2 1 * sqDiff d.g t.g + weight per cfg2 2 * sqDiff d.b t.b

/-- The BC7 term of one pixel: R, G, B and A (44_quantizer.md R210). -/
def rgbaTerm (per : Nat) (cfg2 : Word) (d t : Pixel) : Nat :=
  rgbTerm per cfg2 d t + weight per cfg2 3 * sqDiff d.a t.a

/-- Err_BC1(D, T). -/
def errBc1 (per : Nat) (cfg2 : Word) (d : Vector Pixel 16) (tile : Vector Word 16) : Nat :=
  sumPixels fun p => rgbTerm per cfg2 d[p] (tilePixel tile p)

/-- Err_BC7(D, T). -/
def errBc7 (per : Nat) (cfg2 : Word) (d : Vector Pixel 16) (tile : Vector Word 16) : Nat :=
  sumPixels fun p => rgbaTerm per cfg2 d[p] (tilePixel tile p)

/-- Err_BC4(v, T) for the channel values `t` of the tile. -/
def errBc4 (v t : Vector Nat 16) : Nat := sumPixels fun p => sqDiff v[p] t[p]

/-- One candidate against the best so far: it replaces it only when strictly better. -/
def leastStep {α : Type} (f : α → Nat) (best : Option (α × Nat)) (a : α) : Option (α × Nat) :=
  match best with
  | none => some (a, f a)
  | some b => if f a < b.2 then some (a, f a) else some b

/-- The first candidate of a list with the least score, and that score (44_quantizer.md R212, R233, R234,
R242). -/
def firstLeast {α : Type} (f : α → Nat) (l : List α) : Option (α × Nat) := l.foldl (leastStep f) none

/-- The selector BestSel gives pixel `p` and its error: the least error, the smallest selector among equals,
`allowed` being in rising order (44_quantizer.md R212). -/
def bestFor {α : Type} [Inhabited α] (pal : List α) (allowed : List Nat) (e : α → Fin 16 → Nat) (p : Fin 16) :
    Nat × Nat :=
  (firstLeast (fun s => e (entry pal s) p) allowed).getD (0, 0)

/-- The selectors of BestSel(P, allowed, e) (44_quantizer.md R212). -/
def bestSels {α : Type} [Inhabited α] (pal : List α) (allowed : List Nat) (e : α → Fin 16 → Nat) :
    Vector Nat 16 :=
  Vector.ofFn fun p => (bestFor pal allowed e p).1

/-- The total error of BestSel(P, allowed, e) (44_quantizer.md R212). -/
def bestErr {α : Type} [Inhabited α] (pal : List α) (allowed : List Nat) (e : α → Fin 16 → Nat) : Nat :=
  sumPixels fun p => (bestFor pal allowed e p).2

/-- BC1 allowed selectors (44_quantizer.md R213). -/
def bc1Allowed (cfg0 : Word) (c0 c1 : Nat) : List Nat :=
  if fourColour c0 c1 || cfgUse3Black cfg0 = 1 then [0, 1, 2, 3] else [0, 1, 2]

/-- The selectors of Sel1(c0, c1) (44_quantizer.md R213). -/
def sel1 (cfg0 cfg2 : Word) (tile : Vector Word 16) (c0 c1 : Nat) : Vector Nat 16 :=
  bestSels (bc1Pal (cfgBc1Mode cfg0) c0 c1) (bc1Allowed cfg0 c0 c1)
    fun x p => rgbTerm (cfgPerceptual cfg0) cfg2 x (tilePixel tile p)

/-- The error of Sel1(c0, c1) (44_quantizer.md R213). -/
def sel1Err (cfg0 cfg2 : Word) (tile : Vector Word 16) (c0 c1 : Nat) : Nat :=
  bestErr (bc1Pal (cfgBc1Mode cfg0) c0 c1) (bc1Allowed cfg0 c0 c1)
    fun x p => rgbTerm (cfgPerceptual cfg0) cfg2 x (tilePixel tile p)

/-- All eight BC4 selectors (44_quantizer.md R215). -/
def bc4Allowed : List Nat := [0, 1, 2, 3, 4, 5, 6, 7]

/-- The best selectors of one channel (44_quantizer.md R215, R242). -/
def sel4 (v : Vector Nat 16) (e0 e1 : Nat) : Vector Nat 16 :=
  bestSels (bc4Pal e0 e1) bc4Allowed fun x p => sqDiff x v[p]

/-- Their error (44_quantizer.md R215, R242). -/
def sel4Err (v : Vector Nat 16) (e0 e1 : Nat) : Nat :=
  bestErr (bc4Pal e0 e1) bc4Allowed fun x p => sqDiff x v[p]

end Sys2Proof.Machine
end

