-- ==== Sys2Proof/Machine/Bc7Search.lean ====
section
/-! DEFINITION. BC7_SEARCH (44_quantizer.md R245, R246; entry 10): a least-error choice from an opaque candidate
set, built so that it has the four properties of R246 and every search that has them is one of its values. -/

namespace Sys2Proof.Machine

/-- The mode and the partition number of a block; a block without a mode counts as mode 8. -/
def bc7ModeNumber (b : Nat) : Nat := (bc7ModeOf b).getD 8

/-- A block may be a candidate under mode mask `mask` and BC7_MAX_PART `maxPart` (44_quantizer.md R246, property
1). -/
def bc7Admitted (maxPart mask : Nat) (blk : Vector Byte 16) : Bool :=
  match bc7ModeOf (blockBits blk) with
  | none => false
  | some m =>
    mask / 2 ^ m % 2 = 1 &&
      ((bc7Mode m).pb = 0 ||
        (bc7PartOf m (blockBits blk) < maxPart && (m ≠ 0 || bc7PartOf m (blockBits blk) < 16)))

/-- The block whose only 1 bit is the lowest bit of the mask: the lowest admitted mode, partition 0. It is a
candidate only where the opaque constant offers none, so that the set is never empty (entry 10). -/
def bc7Seed (mask : Nat) : Vector Byte 16 :=
  blockOf (2 ^ ((List.range 8).find? fun m => mask / 2 ^ m % 2 = 1).getD 8 % 256) 0

/-- The smallest budget's candidates, with the seed where there are none. -/
def bc7Base (tile : Vector Word 16) (mask : Nat) : List (Vector Byte 16) :=
  if (Config.bc7Candidates tile 0 1 mask).any (bc7Admitted 1 mask) then [] else [bc7Seed mask]

/-- The candidate set C(T, u, P, M) (44_quantizer.md R246, properties 1 and 3): what every budget up to (u, P)
offers and the mask and P admit. -/
def bc7CandidateSet (tile : Vector Word 16) (u p mask : Nat) : List (Vector Byte 16) :=
  (bc7Base tile mask ++ (List.range (u + 1)).flatMap fun u' => (List.range (p + 1)).flatMap fun p' =>
    Config.bc7Candidates tile u' p' mask).filter (bc7Admitted p mask)

/-- The elements of a list with the least score. -/
def leastOf {α : Type} (f : α → Nat) (l : List α) : List α := l.filter fun a => l.all fun b => f a ≤ f b

/-- The error a candidate is scored with (44_quantizer.md R245). -/
def bc7Score (a : Config.SearchArgs) (blk : Vector Byte 16) : Nat :=
  errBc7 a.perceptual a.cfg2 (bc7Decode (blockBits blk)) a.tile

/-- The candidates of least error, among them of lowest mode, among them of lowest partition number, among them of
least rank (44_quantizer.md R246, property 2). -/
def bc7Winners (a : Config.SearchArgs) : List (Vector Byte 16) :=
  leastOf (Config.bc7TieRank a)
    (leastOf (fun b => bc7PartOf (bc7ModeNumber (blockBits b)) (blockBits b))
      (leastOf (fun b => bc7ModeNumber (blockBits b))
        (leastOf (bc7Score a) (bc7CandidateSet a.tile a.uber a.maxPart a.modeMask))))

/-- BC7_SEARCH (44_quantizer.md R246). With an empty mask, which INIT rejects, there is no candidate and the block
is open. -/
def bc7Search (a : Config.SearchArgs) : Vector Byte 16 :=
  (bc7Winners a).headD (Config.bc7OutsideDomain a)

end Sys2Proof.Machine
end

