-- ==== Sys2Proof/Machine/Search.lean ====
section
/-! DEFINITION. The endpoint searches of ENCODE: the BC1 reference quantizer (44_quantizer.md R231 to R235), the
BC4 and BC5 reference quantizer (R240 to R242). -/

namespace Sys2Proof.Machine

/-- The least of 16 channel values (each 0..255). -/
def minOf (v : Vector Nat 16) : Nat := v.toList.foldl min 255
/-- The greatest of 16 channel values. -/
def maxOf (v : Vector Nat 16) : Nat := v.toList.foldl max 0
/-- All 16 values are equal (92_eei_decisions.md D52). -/
def allEqual (v : Vector Nat 16) : Bool := v.toList.all fun x => x = v[0]

/-! ## BC1 -/

/-- The endpoints and selectors a quantizer returns, with their error. -/
structure Encoded where
  e0 : Nat
  e1 : Nat
  sels : Vector Nat 16
  err : Nat
deriving DecidableEq, Repr

/-- The tile's R, G and B are the same for all pixels (44_quantizer.md R231). -/
def bc1Solid (tile : Vector Word 16) : Bool :=
  allEqual (tileChannel tile 0) && allEqual (tileChannel tile 1) && allEqual (tileChannel tile 2)

/-- The diagonals of the colour bounding box as quantized words (Q565(hi), Q565(lo)), in order: d0, and d1, d2, d3
when UBER >= 1 (44_quantizer.md R232, R233). -/
def bc1Diagonals (uber : Nat) (tile : Vector Word 16) : List (Nat × Nat) :=
  let mn := fun c => minOf (tileChannel tile c)
  let mx := fun c => maxOf (tileChannel tile c)
  let d0 := (q565 (mx 0) (mx 1) (mx 2), q565 (mn 0) (mn 1) (mn 2))
  let d1 := (q565 (mx 0) (mn 1) (mx 2), q565 (mn 0) (mx 1) (mn 2))
  let d2 := (q565 (mx 0) (mx 1) (mn 2), q565 (mn 0) (mn 1) (mx 2))
  let d3 := (q565 (mx 0) (mn 1) (mn 2), q565 (mn 0) (mx 1) (mx 2))
  if uber = 0 then [d0] else [d0, d1, d2, d3]

/-- The pairs a diagonal has considered, in order (44_quantizer.md R233). -/
def bc1Considered (use3 : Nat) (d : Nat × Nat) : List (Nat × Nat) :=
  if d.1 ≠ d.2 then
    (max d.1 d.2, min d.1 d.2) :: (if use3 = 1 then [(min d.1 d.2, max d.1 d.2)] else [])
  else [(d.1, d.1)]

/-- The fields of a 5:6:5 word as (lowest bit, width): R, G, B (44_quantizer.md R234). -/
def fields565 : List (Nat × Nat) := [(11, 5), (5, 6), (0, 5)]

/-- A field of a word raised (`up`) or lowered by 1, unless that leaves the field's range (44_quantizer.md
R234). -/
def nudge (c : Nat) (fld : Nat × Nat) (up : Bool) : Option Nat :=
  let f := slice (fld.1 + fld.2 - 1) fld.1 c
  if up then
    if f + 1 > 2 ^ fld.2 - 1 then none else some (setField fld.1 fld.2 c (f + 1))
  else
    if f < 1 then none else some (setField fld.1 fld.2 c (f - 1))

/-- A moved pair in the order the pass keeps; in 4-colour order an equal pair is skipped (44_quantizer.md
R234). -/
def orderPair (four : Bool) (x y : Nat) : Option (Nat × Nat) :=
  if four then
    if x = y then none else some (max x y, min x y)
  else some (min x y, max x y)

/-- The neighbours one pass tries, in order: endpoint c0 then c1, fields R, G, B, +1 then -1 (44_quantizer.md
R234). -/
def bc1Neighbours (use3 : Nat) (c : Nat × Nat) : List (Nat × Nat) :=
  let four := fourColour c.1 c.2 || use3 = 0
  (fields565.flatMap fun fld => [true, false].filterMap fun up =>
    (nudge c.1 fld up).bind fun x => orderPair four x c.2) ++
  (fields565.flatMap fun fld => [true, false].filterMap fun up =>
    (nudge c.2 fld up).bind fun y => orderPair four c.1 y)

/-- Up to `n` refinement passes from the best pair and its error, stopping at the first that does not improve
(44_quantizer.md R234). -/
def bc1Refine (score : Nat × Nat → Nat) (use3 : Nat) : Nat → (Nat × Nat) × Nat → (Nat × Nat) × Nat
  | 0, best => best
  | n + 1, best =>
    match firstLeast score (bc1Neighbours use3 best.1) with
    | none => best
    | some nb => if nb.2 < best.2 then bc1Refine score use3 n nb else best

/-- The best pair of the diagonals and its error (44_quantizer.md R232, R233). The list is never empty. -/
def bc1Start (cfg0 cfg2 : Word) (tile : Vector Word 16) : (Nat × Nat) × Nat :=
  (firstLeast (fun c => sel1Err cfg0 cfg2 tile c.1 c.2)
    ((bc1Diagonals (cfgUber cfg0) tile).flatMap (bc1Considered (cfgUse3 cfg0)))).getD ((0, 0), 0)

/-- The pair the search ends with and its error: UBER - 1 passes at most, none below UBER = 2 (44_quantizer.md
R234, R235). -/
def bc1Best (cfg0 cfg2 : Word) (tile : Vector Word 16) : (Nat × Nat) × Nat :=
  bc1Refine (fun c => sel1Err cfg0 cfg2 tile c.1 c.2) (cfgUse3 cfg0) (cfgUber cfg0 - 1) (bc1Start cfg0 cfg2 tile)

/-- The word a solid tile is encoded with (44_quantizer.md R231). -/
def bc1SolidWord (tile : Vector Word 16) : Nat :=
  q565 (tilePixel tile 0).r (tilePixel tile 0).g (tilePixel tile 0).b

/-- EncBC1(T) (44_quantizer.md R235). -/
def encBc1 (cfg0 cfg2 : Word) (tile : Vector Word 16) : Encoded :=
  if bc1Solid tile then
    let q := bc1SolidWord tile
    ⟨q, q, noSelectors,
      errBc1 (cfgPerceptual cfg0) cfg2 (Vector.replicate 16 (entry (bc1Pal (cfgBc1Mode cfg0) q q) 0)) tile⟩
  else
    let best := bc1Best cfg0 cfg2 tile
    ⟨best.1.1, best.1.2, sel1 cfg0 cfg2 tile best.1.1 best.1.2, best.2⟩

/-! ## BC4 and BC5 -/

/-- clamp(x - r + i, 0, 255) (44_quantizer.md R241), the subtraction stopping at 0 as the clamp does. -/
def windowValue (x r i : Nat) : Nat := min (x + i - r) 255

/-- The candidate pairs in the order of 44_quantizer.md R241. -/
def bc4Candidates (mx mn r : Nat) : List (Nat × Nat) :=
  (List.range (2 * r + 1)).flatMap fun i => (List.range (2 * r + 1)).flatMap fun j =>
    [(windowValue mx r i, windowValue mn r j), (windowValue mn r j, windowValue mx r i)]

/-- The first candidate with the least error (44_quantizer.md R242). The list is never empty. -/
def bc4Best (r : Nat) (v : Vector Nat 16) : (Nat × Nat) × Nat :=
  (firstLeast (fun c => sel4Err v c.1 c.2) (bc4Candidates (maxOf v) (minOf v) r)).getD ((0, 0), 0)

/-- EncBC4(v) with radius `r` (44_quantizer.md R240, R242). -/
def encBc4 (r : Nat) (v : Vector Nat 16) : Encoded :=
  if allEqual v then ⟨v[0], v[0], noSelectors, 0⟩
  else
    let best := bc4Best r v
    ⟨best.1.1, best.1.2, sel4 v best.1.1 best.1.2, best.2⟩

end Sys2Proof.Machine
end

