-- ==== Sys2Proof/Machine/Select.lean ====
section
/-! DEFINITION. SELECT.BC1, SELECT.BC4 and SELECT.BC5 (44_quantizer.md R214 to R216), and the results that SELECT
and ENCODE write for given endpoints and selectors. -/

namespace Sys2Proof.Machine

/-- SEL, BLOCK, OUT and ERR for a BC1 block of endpoints `c0`, `c1` and selectors `v` (44_quantizer.md R214, R235):
OUT is the decode of the new BLOCK. -/
def writeBc1 (c0 c1 : Nat) (v : Vector Nat 16) (e : Nat) (s : State) : State :=
  let block := blockOf (bc1Pack c0 c1 v) 0
  (((s.setSel (selWords v noSelectors)).setBlock block).setOut
    (bc1Decode (cfgBc1Mode s.cfg0) (blockLow block))).setErr e

/-- SEL, BLOCK, OUT and ERR for a BC4 block (44_quantizer.md R215, R243). -/
def writeBc4 (e0 e1 : Nat) (v : Vector Nat 16) (e : Nat) (s : State) : State :=
  let block := blockOf (bc4Pack e0 e1 v) 0
  (((s.setSel (selWords v noSelectors)).setBlock block).setOut (bc4Decode (blockLow block))).setErr e

/-- SEL, BLOCK, OUT and ERR for a BC5 block (44_quantizer.md R216, R244). -/
def writeBc5 (a0 a1 : Nat) (va : Vector Nat 16) (b0 b1 : Nat) (vb : Vector Nat 16) (e : Nat) (s : State) : State :=
  let block := blockOf (bc4Pack a0 a1 va) (bc4Pack b0 b1 vb)
  (((s.setSel (selWords va vb)).setBlock block).setOut (bc5Decode (blockLow block) (blockHigh block))).setErr e

/-- SELECT.BC1 (44_quantizer.md R214); ENDP is not written. -/
def execSelectBc1 (s : State) : Host.Outcome State Fault Refusal :=
  let c0 := endpC0 s.endp
  let c1 := endpC1 s.endp
  conclude (dataChecks .bc1 s) s
    (writeBc1 c0 c1 (sel1 s.cfg0 s.cfg2 s.tile c0 c1) (sel1Err s.cfg0 s.cfg2 s.tile c0 c1) s)

/-- SELECT.BC4 (44_quantizer.md R215); ENDP is not written. -/
def execSelectBc4 (s : State) : Host.Outcome State Fault Refusal :=
  let e0 := endpByte s.endp 0
  let e1 := endpByte s.endp 1
  let v := tileChannel s.tile (cfgCh0 s.cfg0)
  conclude (dataChecks .bc4 s) s (writeBc4 e0 e1 (sel4 v e0 e1) (sel4Err v e0 e1) s)

/-- SELECT.BC5 (44_quantizer.md R216); ENDP is not written. -/
def execSelectBc5 (s : State) : Host.Outcome State Fault Refusal :=
  let a0 := endpByte s.endp 0
  let a1 := endpByte s.endp 1
  let b0 := endpByte s.endp 2
  let b1 := endpByte s.endp 3
  let va := tileChannel s.tile (cfgCh0 s.cfg0)
  let vb := tileChannel s.tile (cfgCh1 s.cfg0)
  conclude (dataChecks .bc5 s) s
    (writeBc5 a0 a1 (sel4 va a0 a1) b0 b1 (sel4 vb b0 b1) (sel4Err va a0 a1 + sel4Err vb b0 b1) s)

end Sys2Proof.Machine
end

