-- ==== Sys2Proof/Machine/Encode.lean ====
section
/-! DEFINITION. ENCODE.BC1, ENCODE.BC4, ENCODE.BC5 and ENCODE.BC7 (44_quantizer.md R230, R235, R243, R244, R247). -/

namespace Sys2Proof.Machine

/-- ENCODE.BC1 (44_quantizer.md R235). -/
def execEncodeBc1 (s : State) : Host.Outcome State Fault Refusal :=
  let r := encBc1 s.cfg0 s.cfg2 s.tile
  conclude (dataChecks .bc1 s) s ((writeBc1 r.e0 r.e1 r.sels r.err s).setEndp (endpOfBc1 r.e0 r.e1))

/-- ENCODE.BC4 (44_quantizer.md R243). -/
def execEncodeBc4 (s : State) : Host.Outcome State Fault Refusal :=
  let r := encBc4 (cfgRadius s.cfg0) (tileChannel s.tile (cfgCh0 s.cfg0))
  conclude (dataChecks .bc4 s) s ((writeBc4 r.e0 r.e1 r.sels r.err s).setEndp (endpOfBc4 r.e0 r.e1))

/-- ENCODE.BC5 (44_quantizer.md R244). -/
def execEncodeBc5 (s : State) : Host.Outcome State Fault Refusal :=
  let a := encBc4 (cfgRadius s.cfg0) (tileChannel s.tile (cfgCh0 s.cfg0))
  let b := encBc4 (cfgRadius s.cfg0) (tileChannel s.tile (cfgCh1 s.cfg0))
  conclude (dataChecks .bc5 s) s
    ((writeBc5 a.e0 a.e1 a.sels b.e0 b.e1 b.sels (a.err + b.err) s).setEndp (endpOfBc5 a.e0 a.e1 b.e0 b.e1))

/-- The arguments ENCODE.BC7 gives BC7_SEARCH (44_quantizer.md R247). -/
def searchArgs (s : State) : Config.SearchArgs :=
  { tile := s.tile, uber := cfgUber s.cfg0, perceptual := cfgPerceptual s.cfg0, cfg2 := s.cfg2,
    modeMask := cfgModeMask s.cfg1, maxPart := cfgMaxPart s.cfg1 }

/-- BLOCK, OUT and ERR for a BC7 block, ENDP and SEL0..SEL3 zero (44_quantizer.md R230, R247). -/
def writeBc7 (blk : Vector Byte 16) (s : State) : State :=
  let d := bc7Decode (blockBits blk)
  ((((s.setBlock blk).setOut d).setErr (errBc7 (cfgPerceptual s.cfg0) s.cfg2 d s.tile)).setEndp 0).setSel
    (Vector.replicate 4 0)

/-- ENCODE.BC7 (44_quantizer.md R247). -/
def execEncodeBc7 (s : State) : Host.Outcome State Fault Refusal :=
  conclude (dataChecks .bc7 s) s (writeBc7 (bc7Search (searchArgs s)) s)

end Sys2Proof.Machine
end

