-- ==== Sys2Proof/Machine/Eval.lean ====
section
/-! DEFINITION. EVAL.BC1, EVAL.BC4, EVAL.BC5 and EVAL.BC7 (44_quantizer.md R217 to R220). -/

namespace Sys2Proof.Machine

/-- EVAL.BC1 (44_quantizer.md R217). -/
def execEvalBc1 (s : State) : Host.Outcome State Fault Refusal :=
  let d := bc1Decode (cfgBc1Mode s.cfg0) (blockLow s.block)
  conclude (dataChecks .bc1 s) s
    ((s.setOut d).setErr (errBc1 (cfgPerceptual s.cfg0) s.cfg2 d s.tile))

/-- EVAL.BC4 (44_quantizer.md R218). -/
def execEvalBc4 (s : State) : Host.Outcome State Fault Refusal :=
  let b := blockLow s.block
  conclude (dataChecks .bc4 s) s
    ((s.setOut (bc4Decode b)).setErr (errBc4 (bc4Values b) (tileChannel s.tile (cfgCh0 s.cfg0))))

/-- EVAL.BC5 (44_quantizer.md R219). -/
def execEvalBc5 (s : State) : Host.Outcome State Fault Refusal :=
  let a := blockLow s.block
  let b := blockHigh s.block
  conclude (dataChecks .bc5 s) s
    ((s.setOut (bc5Decode a b)).setErr
      (errBc4 (bc4Values a) (tileChannel s.tile (cfgCh0 s.cfg0)) +
        errBc4 (bc4Values b) (tileChannel s.tile (cfgCh1 s.cfg0))))

/-- EVAL.BC7 (44_quantizer.md R220). -/
def execEvalBc7 (s : State) : Host.Outcome State Fault Refusal :=
  let d := bc7Decode (blockBits s.block)
  conclude (dataChecks .bc7 s) s
    ((s.setOut d).setErr (errBc7 (cfgPerceptual s.cfg0) s.cfg2 d s.tile))

end Sys2Proof.Machine
end

