-- ==== Sys2Proof/Machine/Pack.lean ====
section
/-! DEFINITION. PACK.BC1, PACK.BC4 and PACK.BC5 (41_bc1.md R147; 42_bc4_bc5.md R166, R168). -/

namespace Sys2Proof.Machine

/-- BadParameter where a selector nibble of channel `k` exceeds `top` (60_exceptions.md R262, step 4). -/
def selectorCheck (top : Nat) (k : Fin 2) (s : State) : ResultCode :=
  if (selChannel s.sel k).toList.all (fun v => v ≤ top) then .success else .badParameter

/-- PACK.BC1 (41_bc1.md R147). -/
def execPackBc1 (s : State) : Host.Outcome State Fault Refusal :=
  conclude ((dataChecks .bc1 s).andThen (selectorCheck 3 0 s)) s
    (s.setBlock (blockOf (bc1Pack (endpC0 s.endp) (endpC1 s.endp) (selChannel s.sel 0)) 0))

/-- PACK.BC4 (42_bc4_bc5.md R166). -/
def execPackBc4 (s : State) : Host.Outcome State Fault Refusal :=
  conclude ((dataChecks .bc4 s).andThen (selectorCheck 7 0 s)) s
    (s.setBlock (blockOf (bc4Pack (endpByte s.endp 0) (endpByte s.endp 1) (selChannel s.sel 0)) 0))

/-- PACK.BC5 (42_bc4_bc5.md R168). -/
def execPackBc5 (s : State) : Host.Outcome State Fault Refusal :=
  conclude ((dataChecks .bc5 s).andThen ((selectorCheck 7 0 s).andThen (selectorCheck 7 1 s))) s
    (s.setBlock
      (blockOf (bc4Pack (endpByte s.endp 0) (endpByte s.endp 1) (selChannel s.sel 0))
        (bc4Pack (endpByte s.endp 2) (endpByte s.endp 3) (selChannel s.sel 1))))

end Sys2Proof.Machine
end

