-- ==== Sys2Proof/Machine/Unpack.lean ====
section
/-! DEFINITION. UNPACK.BC1, UNPACK.BC4, UNPACK.BC5 and UNPACK.BC7 (41_bc1.md R148; 42_bc4_bc5.md R167, R169;
43_bc7.md R195). -/

namespace Sys2Proof.Machine

/-- UNPACK.BC1 (41_bc1.md R148). -/
def execUnpackBc1 (s : State) : Host.Outcome State Fault Refusal :=
  let b := blockLow s.block
  conclude (dataChecks .bc1 s) s
    (((s.setOut (bc1Decode (cfgBc1Mode s.cfg0) b)).setEndp (endpOfBc1 (bc1C0 b) (bc1C1 b))).setSel
      (selWords (bc1Sels b) noSelectors))

/-- UNPACK.BC4 (42_bc4_bc5.md R167). -/
def execUnpackBc4 (s : State) : Host.Outcome State Fault Refusal :=
  let b := blockLow s.block
  conclude (dataChecks .bc4 s) s
    (((s.setOut (bc4Decode b)).setEndp (endpOfBc4 (bc4E0 b) (bc4E1 b))).setSel
      (selWords (bc4Sels b) noSelectors))

/-- UNPACK.BC5 (42_bc4_bc5.md R169). -/
def execUnpackBc5 (s : State) : Host.Outcome State Fault Refusal :=
  let a := blockLow s.block
  let b := blockHigh s.block
  conclude (dataChecks .bc5 s) s
    (((s.setOut (bc5Decode a b)).setEndp (endpOfBc5 (bc4E0 a) (bc4E1 a) (bc4E0 b) (bc4E1 b))).setSel
      (selWords (bc4Sels a) (bc4Sels b)))

/-- UNPACK.BC7 (43_bc7.md R195); ENDP and SEL0..SEL3 are not written. -/
def execUnpackBc7 (s : State) : Host.Outcome State Fault Refusal :=
  conclude (dataChecks .bc7 s) s (s.setOut (bc7Decode (blockBits s.block)))

end Sys2Proof.Machine
end

