-- ==== Sys2Proof/Machine/Dispatch.lean ====
section
/-! DEFINITION. The meaning of each command at its completion (60_exceptions.md R266), one arm per row of
spec/opcode_table.json. -/

namespace Sys2Proof.Machine

def exec (i : Instr) (s : State) : Host.Outcome State Fault Refusal :=
  match i with
  | .init => Sys2Proof.Machine.execInit s
  | .destroy => Sys2Proof.Machine.execDestroy s
  | .reset => Sys2Proof.Machine.execReset s
  | .packBc1 => Sys2Proof.Machine.execPackBc1 s
  | .packBc4 => Sys2Proof.Machine.execPackBc4 s
  | .packBc5 => Sys2Proof.Machine.execPackBc5 s
  | .unpackBc1 => Sys2Proof.Machine.execUnpackBc1 s
  | .unpackBc4 => Sys2Proof.Machine.execUnpackBc4 s
  | .unpackBc5 => Sys2Proof.Machine.execUnpackBc5 s
  | .unpackBc7 => Sys2Proof.Machine.execUnpackBc7 s
  | .selectBc1 => Sys2Proof.Machine.execSelectBc1 s
  | .selectBc4 => Sys2Proof.Machine.execSelectBc4 s
  | .selectBc5 => Sys2Proof.Machine.execSelectBc5 s
  | .encodeBc1 => Sys2Proof.Machine.execEncodeBc1 s
  | .encodeBc4 => Sys2Proof.Machine.execEncodeBc4 s
  | .encodeBc5 => Sys2Proof.Machine.execEncodeBc5 s
  | .encodeBc7 => Sys2Proof.Machine.execEncodeBc7 s
  | .evalBc1 => Sys2Proof.Machine.execEvalBc1 s
  | .evalBc4 => Sys2Proof.Machine.execEvalBc4 s
  | .evalBc5 => Sys2Proof.Machine.execEvalBc5 s
  | .evalBc7 => Sys2Proof.Machine.execEvalBc7 s

end Sys2Proof.Machine
end

