-- ==== Sys2Proof/Machine/Unit.lean ====
section
/-! DEFINITION. The two agents: the unit, which advances and completes the command in the latch (60_exceptions.md
R266), and the host's and the platform's next event. -/

namespace Sys2Proof.Machine

/-- The completion of the command word in flight (60_exceptions.md R266): the decoded command, or BadParameter and
nothing else for an illegal word (R262 step 1, R263). -/
def runWord (w : Word) (s : State) : Host.Outcome State Fault Refusal :=
  match decodeWord w with
  | .ok i => exec i s
  | .error _ => conclude .badParameter s s

/-- One unit step (60_exceptions.md R266): the last one completes the command; with no command in flight nothing
happens (60_exceptions.md R276). -/
def unitStep (s : State) : Host.Outcome State Fault Refusal :=
  match s.latch with
  | none => .next s
  | some f =>
    if f.remaining ≤ 1 then runWord f.word s
    else .next (s.setLatch (some ⟨f.word, f.remaining - 1⟩))

/-- WAIT (30_encoding.md R83), in front of the events `rest`: while BUSY = 1 the unit's remaining steps pass, which
change no register before the completion (60_exceptions.md R266; entry 5); with BUSY = 0 the host reads STATUS
and goes on. -/
def waitStep (rest : List HostOp) (s : State) : Host.Outcome State Fault Refusal :=
  match s.latch with
  | none => .next ((s.setHost rest).pushRead (readReg s .status))
  | some f => runWord f.word s

/-- The next event of the host or the platform, `s` still holding it in front of `rest` (entry 1). -/
def eventStep (e : HostOp) (rest : List HostOp) (s : State) : Host.Outcome State Fault Refusal :=
  match e with
  | .read w a => access w a fun o => (s.setHost rest).pushRead (readOffset s o)
  | .write w a v => access w a fun o => writeOffset o v (s.setHost rest)
  | .tick => unitStep (s.setHost rest)
  | .wait => waitStep rest s
  | .hardReset => .next (hardReset (s.setHost rest))

/-- The latch as a CMD write of `w` leaves it when one unit step remains (60_exceptions.md R265, R266), with no
event in front of that step. -/
def loadCommand (w : Word) (s : State) : State :=
  { s with done := false, latch := some ⟨w, 1⟩, host := [] }

end Sys2Proof.Machine
end

