-- ==== Sys2Proof/Machine/Step.lean ====
section
/-! DEFINITION. One step of the machine: the next event of the host's script, or, when the script is empty, one step
of the unit (entry 1). -/

namespace Sys2Proof.Machine

/-- One step. -/
def step (s : State) : Host.Outcome State Fault Refusal :=
  match s.host with
  | [] => unitStep s
  | e :: rest => eventStep e rest s

/-- The state whose next step runs the command word with the bits `w`: the word stands in the in-flight latch with
its last unit step next, as after a host's write to CMD (entry 2). -/
def State.withFetchWord (s : State) (nbits w : Nat) : State :=
  loadCommand (BitVec.ofNat 32 (w % 2 ^ nbits)) s

end Sys2Proof.Machine
end

