-- ==== Sys2Proof/Machine/HostProgram.lean ====
section
/-! DEFINITION. Host programs (30_encoding.md R83, R84) and the host's duties at the image boundary (20_memory.md
R62, R63; 60_exceptions.md R277). They are data and functions outside the step: a program is put in `State.host`. -/

namespace Sys2Proof.Machine

/-! ## Operations and pseudo-operations (30_encoding.md R83, R84) -/

/-- `WR <reg>, <value>`. -/
def opWR (r : Reg) (v : Word) : HostOp := .write .word (.window (regOffset r)) v
/-- `RD <reg> -> <name>`; the value read is the newest of `State.rdata`. -/
def opRD (r : Reg) : HostOp := .read .word (.window (regOffset r))
/-- `CMD <mnemonic>`. -/
def opCMD (i : Instr) : HostOp := opWR .cmd (encode i)
/-- `WAIT`. -/
def opWAIT : HostOp := .wait
/-- `DO <mnemonic>`. -/
def opDO (i : Instr) : List HostOp := [opCMD i, opWAIT]
/-- `LDTILE v0, ..., v15`. -/
def opLDTILE (v : Vector Word 16) : List HostOp := (List.finRange 16).map fun p => opWR (.tile p) v[p]
/-- `LDTILE.solid v`. -/
def opLDTILEsolid (v : Word) : List HostOp := (List.finRange 16).map fun p => opWR (.tile p) v
/-- `LDBLOCK w0, w1`, for 8-byte formats. -/
def opLDBLOCK8 (w0 w1 : Word) : List HostOp := [opWR (.blockWord 0) w0, opWR (.blockWord 1) w1]
/-- `LDBLOCK w0, w1, w2, w3`, for 16-byte formats. -/
def opLDBLOCK16 (w0 w1 w2 w3 : Word) : List HostOp :=
  [opWR (.blockWord 0) w0, opWR (.blockWord 1) w1, opWR (.blockWord 2) w2, opWR (.blockWord 3) w3]
/-- `CLRDONE`. -/
def opCLRDONE : HostOp := opWR .status 0x0000000A
/-- `SESSION <cfg0>, <cfg1>, <cfg2>`. -/
def opSESSION (cfg0 cfg1 cfg2 : Word) : List HostOp :=
  [opWR .cfg0 cfg0, opWR .cfg1 cfg1, opWR .cfg2 cfg2] ++ opDO .init

/-! ## Host duties (20_memory.md R62, R63; entry 18) -/

/-- Tiles per row or rows of tiles, ceil(n / 4) (20_memory.md R62). -/
def tileCount (n : Nat) : Nat := (n + 3) / 4

/-- TILE[p] of tile `t` of a row-major RGBA8 image of width `w` and height `h`, edges replicated (20_memory.md
R62). -/
def imageTileWord (img : List Byte) (w h t : Nat) (p : Fin 16) : Word :=
  let tx := t % tileCount w
  let ty := t / tileCount w
  let sx := min (4 * tx + p.val % 4) (w - 1)
  let sy := min (4 * ty + p.val / 4) (h - 1)
  let at4 := fun k => (img.getD (4 * (sy * w + sx) + k) 0).toNat
  wordOfPixel ⟨at4 0, at4 1, at4 2, at4 3⟩

/-- The 16 TILE words of tile `t` (20_memory.md R62). -/
def imageTile (img : List Byte) (w h t : Nat) : Vector Word 16 := Vector.ofFn (imageTileWord img w h t)

/-- Bytes of a block that go to the stream: 8 for BC1 and BC4, 16 for BC5 and BC7 (20_memory.md R63). -/
def streamBytes : Fmt → Nat
  | .none => 0
  | .bc1 => 8
  | .bc4 => 8
  | .bc5 => 16
  | .bc7 => 16

/-- The block stream of the BLOCK values after each tile's command, in tile order (20_memory.md R63). -/
def blockStream (f : Fmt) (blocks : List (Vector Byte 16)) : List Byte :=
  blocks.flatMap fun b => b.toList.take (streamBytes f)

/-- The stream size, TW*TH*S bytes (20_memory.md R63). -/
def streamSize (f : Fmt) (w h : Nat) : Nat := tileCount w * tileCount h * streamBytes f

/-- The two codes the host reports before it issues any command (20_memory.md R62, R63; 60_exceptions.md R261,
R277). -/
def hostCheck (f : Fmt) (w h capacity : Nat) : ResultCode :=
  if w = 0 ∨ h = 0 then .invalidInput
  else if capacity < streamSize f w h then .outOfMemory
  else .success

end Sys2Proof.Machine
end

