-- ==== Sys2Proof/Safety.lean ====
section
/-! DEFINITION. The terms the claims are stated in: legal states, when a data command may run, what a command reads
and writes (30_encoding.md R85), and what two states must share for a command to do the same on both. -/

namespace Sys2Proof.Machine

/-- The largest error (10_state.md R38): 16 pixels, 4 channels, weight 255, difference 255. -/
def maxError : Nat := 1061208000

/-- A legal state: RESULT is a code the BCU raises (60_exceptions.md R261), a command in flight has a step left and
DONE is clear under it (R265), a context has a valid configuration (40_context.md R121, R124; 10_state.md R33), ERR
is within its bound (R38). -/
def StateOk (s : State) : Prop :=
  (s.result = 0 ∨ s.result = 2 ∨ s.result = 3 ∨ s.result = 4) ∧
  (∀ f ∈ s.latch, 1 ≤ f.remaining) ∧
  (s.busy = true → s.done = false) ∧
  (s.ctxv = true → validate s.cfg0 s.cfg1 s.cfg2 = .success) ∧
  s.err.toNat ≤ maxError

/-- The common checks pass for a data command of format `f` (60_exceptions.md R262): CTXV = 1 and FMT = CFG0.FORMAT,
bits 2:0 (10_state.md R30). -/
def Ready (f : Fmt) (s : State) : Prop := s.ctxv = true ∧ (s.cfg0.extractLsb' 0 3).toNat = f.code

/-- A command has completed with Success (60_exceptions.md R266). -/
def Succeeded (t : State) : Prop := t.result = 0 ∧ t.done = true ∧ t.busy = false

/-- The registers a command may write besides STATUS.RESULT, DONE and BUSY (30_encoding.md R85). -/
inductive Part where
  | ctxv | tile | block | endp | sel | err | out
deriving DecidableEq, Repr

/-- `t` differs from `s` at most in the parts `ps` and in RESULT, DONE and BUSY: CTRL, CFG0..CFG2, OVR, the host's
script and what it has read are kept, and so is every part not in `ps`. -/
def SameBut (ps : List Part) (s t : State) : Prop :=
  t.ovr = s.ovr ∧ t.ie = s.ie ∧ t.cfg0 = s.cfg0 ∧ t.cfg1 = s.cfg1 ∧ t.cfg2 = s.cfg2 ∧
  t.host = s.host ∧ t.rdata = s.rdata ∧
  (.ctxv ∉ ps → t.ctxv = s.ctxv) ∧ (.tile ∉ ps → t.tile = s.tile) ∧ (.block ∉ ps → t.block = s.block) ∧
  (.endp ∉ ps → t.endp = s.endp) ∧ (.sel ∉ ps → t.sel = s.sel) ∧ (.err ∉ ps → t.err = s.err) ∧
  (.out ∉ ps → t.out = s.out)

/-- The command completes with Success in a state that differs from `s` only in the parts `ps` and meets `post`. -/
def Completes (i : Instr) (s : State) (ps : List Part) (post : State → Prop) : Prop :=
  ∃ t, exec i s = .next t ∧ Succeeded t ∧ SameBut ps s t ∧ post t

/-- The command ends with a code other than Success: STATUS changes and nothing else (60_exceptions.md R264). -/
def FailsWith (i : Instr) (s : State) (code : BitVec 4) : Prop :=
  exec i s = .next { s with result := code, done := true, latch := none }

/-- The parts a command writes (30_encoding.md R85). -/
def partsWritten : Instr → List Part
  | .init => [.ctxv, .tile, .block, .endp, .sel, .err, .out]
  | .destroy => [.ctxv, .tile, .block, .endp, .sel, .err, .out]
  | .reset => [.tile, .block, .endp, .sel, .err, .out]
  | .packBc1 => [.block]
  | .packBc4 => [.block]
  | .packBc5 => [.block]
  | .unpackBc1 => [.out, .endp, .sel]
  | .unpackBc4 => [.out, .endp, .sel]
  | .unpackBc5 => [.out, .endp, .sel]
  | .unpackBc7 => [.out]
  | .selectBc1 => [.sel, .block, .out, .err]
  | .selectBc4 => [.sel, .block, .out, .err]
  | .selectBc5 => [.sel, .block, .out, .err]
  | .encodeBc1 => [.endp, .sel, .block, .out, .err]
  | .encodeBc4 => [.endp, .sel, .block, .out, .err]
  | .encodeBc5 => [.endp, .sel, .block, .out, .err]
  | .encodeBc7 => [.endp, .sel, .block, .out, .err]
  | .evalBc1 => [.out, .err]
  | .evalBc4 => [.out, .err]
  | .evalBc5 => [.out, .err]
  | .evalBc7 => [.out, .err]

/-- The part of the state a byte of the window belongs to: `none` for CMD, STATUS, CTRL, CFG0..CFG2 and the reserved
offsets (20_memory.md R50). -/
def partAtByte (o : Nat) : Option Part :=
  if 0x040 ≤ o ∧ o < 0x080 then some .tile
  else if 0x080 ≤ o ∧ o < 0x090 then some .block
  else if 0x090 ≤ o ∧ o < 0x094 then some .endp
  else if 0x098 ≤ o ∧ o < 0x0A8 then some .sel
  else if 0x0A8 ≤ o ∧ o < 0x0AC then some .err
  else if 0x0C0 ≤ o ∧ o < 0x100 then some .out
  else none

/-- The registers a command reads for its result (30_encoding.md R85 and the commands' own rules), besides CTXV and
CFG0, hold the same in both states. -/
def SameReads (i : Instr) (s₁ s₂ : State) : Prop :=
  s₁.ctxv = s₂.ctxv ∧ s₁.cfg0 = s₂.cfg0 ∧
  match i.op with
  | .init => s₁.cfg1 = s₂.cfg1 ∧ s₁.cfg2 = s₂.cfg2
  | .destroy => True
  | .reset => True
  | .pack => s₁.endp = s₂.endp ∧ s₁.sel = s₂.sel
  | .unpack => s₁.block = s₂.block
  | .select => s₁.endp = s₂.endp ∧ s₁.tile = s₂.tile ∧ s₁.cfg2 = s₂.cfg2
  | .encode => s₁.tile = s₂.tile ∧ s₁.cfg1 = s₂.cfg1 ∧ s₁.cfg2 = s₂.cfg2
  | .eval => s₁.block = s₂.block ∧ s₁.tile = s₂.tile ∧ s₁.cfg2 = s₂.cfg2

/-- The parts of two states agree on a list of parts. -/
def AgreeOn (ps : List Part) (t₁ t₂ : State) : Prop :=
  (.ctxv ∈ ps → t₁.ctxv = t₂.ctxv) ∧ (.tile ∈ ps → t₁.tile = t₂.tile) ∧ (.block ∈ ps → t₁.block = t₂.block) ∧
  (.endp ∈ ps → t₁.endp = t₂.endp) ∧ (.sel ∈ ps → t₁.sel = t₂.sel) ∧ (.err ∈ ps → t₁.err = t₂.err) ∧
  (.out ∈ ps → t₁.out = t₂.out)

/-- Two states hold the same context, configuration, data registers, command in flight and host script; STATUS.DONE,
OVR and RESULT, CTRL and what the host has read may differ. -/
def SameUnit (s₁ s₂ : State) : Prop :=
  s₁.ctxv = s₂.ctxv ∧ s₁.cfg0 = s₂.cfg0 ∧ s₁.cfg1 = s₂.cfg1 ∧ s₁.cfg2 = s₂.cfg2 ∧ s₁.tile = s₂.tile ∧
  s₁.block = s₂.block ∧ s₁.endp = s₂.endp ∧ s₁.sel = s₂.sel ∧ s₁.err = s₂.err ∧ s₁.out = s₂.out ∧
  s₁.latch = s₂.latch ∧ s₁.host = s₂.host

/-- `b` is the first candidate of least error in a list (44_quantizer.md R233, R242). -/
def FirstBest {α : Type} (score : α → Nat) (l : List α) (b : α) : Prop :=
  ∃ l₁ l₂, l = l₁ ++ b :: l₂ ∧ (∀ x ∈ l₁, score b < score x) ∧ ∀ x ∈ l₂, score b ≤ score x

/-- `b` is where at most `n` passes from `a` end: a pass goes to the first least of the neighbours when that scores
strictly less than where it stands, else the search stops there (44_quantizer.md R234). -/
def PassesEnd {α : Type} (score : α → Nat) (neighbours : α → List α) : Nat → α → α → Prop
  | 0, a, b => b = a
  | n + 1, a, b =>
    (∃ c, FirstBest score (neighbours a) c ∧ score c < score a ∧ PassesEnd score neighbours n c b) ∨
    ((∀ c ∈ neighbours a, score a ≤ score c) ∧ b = a)

/-- Selector `a` has the least error among `allowed` and is the smallest that has it (44_quantizer.md R212). -/
def BestSelector (allowed : List Nat) (err : Nat → Nat) (a : Nat) : Prop :=
  a ∈ allowed ∧ ∀ x ∈ allowed, err a ≤ err x ∧ (err x = err a → a ≤ x)

/-- The BC4 block `b` (its 64-bit number) is the one the reference quantizer gives the channel values `v` with radius
`r` (44_quantizer.md R240 to R242); on a solid channel it decodes to the channel, so its error is 0. -/
def Bc4Encoding (r : Nat) (v : Vector Nat 16) (b : Nat) : Prop :=
  ((∀ p : Fin 16, v[p] = v[0]) → bc4E0 b = v[0] ∧ bc4E1 b = v[0] ∧ ∀ p : Fin 16, bc4Sel b p.val = 0 ∧ (bc4Values b)[p] = v[p]) ∧
  (¬ (∀ p : Fin 16, v[p] = v[0]) →
    FirstBest (fun c => sel4Err v c.1 c.2) (bc4Candidates (maxOf v) (minOf v) r) (bc4E0 b, bc4E1 b) ∧
    ∀ p : Fin 16, BestSelector bc4Allowed
      (fun a => sqDiff ((bc4Pal (bc4E0 b) (bc4E1 b)).getD a 0) v[p]) (bc4Sel b p.val))

/-- No access of the script is one the BCU does not accept: the host keeps to 20_memory.md R50 and R55. -/
def WellBehavedHost (s : State) : Prop := ∀ e ∈ s.host, e.wellFormed = true

end Sys2Proof.Machine
end

