-- ==== Sys2Proof/Certificates/Slice0/Obligations.lean ====
section
/-! DEFINITION. The statements about the BCU. Each says which rule of spec/ it formalises. -/

open Sys2Proof Sys2Proof.Machine

/-! ## Command words -/

/-- 30_encoding.md R73: the defined commands are exactly the 21 words of the table; the decoder compares all 32 bits. -/
def Obligations.CommandTableExact : Prop :=
  (∀ (w : Word) (i : Instr), decodeWord w = .ok i ↔ w = encode i) ∧
  encode .init = 0x00000001 ∧ encode .destroy = 0x00000002 ∧ encode .reset = 0x00000003 ∧
  encode .packBc1 = 0x00000110 ∧ encode .packBc4 = 0x00000210 ∧ encode .packBc5 = 0x00000310 ∧
  encode .unpackBc1 = 0x00000111 ∧ encode .unpackBc4 = 0x00000211 ∧ encode .unpackBc5 = 0x00000311 ∧
  encode .unpackBc7 = 0x00000411 ∧
  encode .selectBc1 = 0x00000112 ∧ encode .selectBc4 = 0x00000212 ∧ encode .selectBc5 = 0x00000312 ∧
  encode .encodeBc1 = 0x00000113 ∧ encode .encodeBc4 = 0x00000213 ∧ encode .encodeBc5 = 0x00000313 ∧
  encode .encodeBc7 = 0x00000413 ∧
  encode .evalBc1 = 0x00000114 ∧ encode .evalBc4 = 0x00000214 ∧ encode .evalBc5 = 0x00000314 ∧
  encode .evalBc7 = 0x00000414 ∧
  (∀ i, decodeWord 0x00000410 ≠ .ok i) ∧ (∀ i, decodeWord 0x00000412 ≠ .ok i)

/-- 20_memory.md R52 and 30_encoding.md R86: a command is four bytes, the low byte first, and the four bytes of a
command decode to it whatever follows; nothing else decodes to it. -/
def Obligations.CommandBytesRoundTrip : Prop :=
  (∀ (i : Instr) (rest : List Byte), decodeBytes (encodeBytes i ++ rest) = .ok (i, rest)) ∧
  (∀ (bs : List Byte) (i : Instr) (rest : List Byte),
    decodeBytes bs = .ok (i, rest) → bs = encodeBytes i ++ rest)

/-- A few words of 30_encoding.md R73, one per operation, through the table's numbering of bits. -/
def Obligations.TableWordsDecode : Prop :=
  decodeTableWord 32 0x00000001 = some .init ∧ decodeTableWord 32 0x00000002 = some .destroy ∧
  decodeTableWord 32 0x00000003 = some .reset ∧ decodeTableWord 32 0x00000110 = some .packBc1 ∧
  decodeTableWord 32 0x00000211 = some .unpackBc4 ∧ decodeTableWord 32 0x00000312 = some .selectBc5 ∧
  decodeTableWord 32 0x00000413 = some .encodeBc7 ∧ decodeTableWord 32 0x00000414 = some .evalBc7 ∧
  decodeTableWord 32 0x00000410 = none ∧ decodeTableWord 32 0x00000801 = none

/-- 60_exceptions.md R263: a malformed word is issued like any command and completes with BadParameter, changing
nothing but STATUS. -/
def Obligations.IllegalWordIsBadParameter : Prop :=
  ∀ w : Word, (∀ i, w ≠ encode i) →
    (∀ s : State, s.busy = false →
      ∃ n, 1 ≤ n ∧ writeOffset 0x000 w s = { s with done := false, latch := some ⟨w, n⟩ }) ∧
    (∀ s : State, s.host = [] → s.latch = some ⟨w, 1⟩ →
      step s = .next { s with result := 2, done := true, latch := none })

/-! ## Reset and legal states -/

/-- 70_reset_and_hazards.md R291: the state after hardware reset, as the host reads it. -/
def Obligations.ResetValues : Prop :=
  readReg State.reset .status = 0x00000000 ∧ readReg State.reset .ctrl = 0x00000000 ∧
  readReg State.reset .cfg0 = 0x00043604 ∧ readReg State.reset .cfg1 = 0x000040FF ∧
  readReg State.reset .cfg2 = 0x01010101 ∧ (∀ p, readReg State.reset (.tile p) = 0) ∧
  (∀ k, readReg State.reset (.blockWord k) = 0) ∧ readReg State.reset .endp = 0 ∧
  (∀ k, readReg State.reset (.sel k) = 0) ∧ readReg State.reset .err = 0 ∧
  (∀ p, readReg State.reset (.out p) = 0) ∧ State.reset.ctxv = false ∧ State.reset.latch = none

/-- 70_reset_and_hazards.md R290: the reset input gives every register its reset value from any state, abandons a
command in flight and lowers IRQ. -/
def Obligations.HardwareResetFromAnyState : Prop :=
  ∀ (s : State) (rest : List HostOp), s.host = .hardReset :: rest →
    ∃ t, step s = .next t ∧ (∀ r, readReg t r = readReg State.reset r) ∧
      t.latch = none ∧ t.done = false ∧ t.result = 0 ∧ t.ctxv = false ∧ t.irq = false

/-- The reset state is legal (10_state.md R43; StateOk). -/
def Obligations.ResetStateIsLegal : Prop := StateOk State.reset

/-- Every step of the machine keeps a legal state legal: the codes of RESULT (60_exceptions.md R261), the latch (R265),
a valid configuration under a context (40_context.md R124, 10_state.md R33), the bound of ERR (R38). -/
def Obligations.StepKeepsLegalState : Prop :=
  ∀ s t : State, StateOk s → step s = .next t → StateOk t

/-! ## The register window -/

/-- 20_memory.md R50: the offset of every register, the reserved offsets, and the place of the window on the bus. -/
def Obligations.WindowMapAndBase : Prop :=
  (∀ r : Reg, regAt (regOffset r) = some r ∧ regOffset r % 4 = 0 ∧ regOffset r < 256) ∧
  (∀ o < 256, o % 4 = 0 → (regAt o = none ↔
    o = 0x00C ∨ (0x01C ≤ o ∧ o ≤ 0x03C) ∨ o = 0x094 ∨ (0x0AC ≤ o ∧ o ≤ 0x0BC))) ∧
  regAt 0x000 = some .cmd ∧ regAt 0x004 = some .status ∧ regAt 0x008 = some .ctrl ∧ regAt 0x010 = some .cfg0 ∧
  regAt 0x014 = some .cfg1 ∧ regAt 0x018 = some .cfg2 ∧ (∀ p : Fin 16, regAt (0x040 + 4 * p.val) = some (.tile p)) ∧
  (∀ k : Fin 4, regAt (0x080 + 4 * k.val) = some (.blockWord k)) ∧ regAt 0x090 = some .endp ∧
  (∀ k : Fin 4, regAt (0x098 + 4 * k.val) = some (.sel k)) ∧ regAt 0x0A8 = some .err ∧
  (∀ p : Fin 16, regAt (0x0C0 + 4 * p.val) = some (.out p)) ∧
  Config.bcuBase % 256 = 0 ∧
  (∀ a o, windowOffset (.absolute a) = some o ↔ o < 256 ∧ a = Config.bcuBase + o)

/-- 20_memory.md R55: an 8-bit or 16-bit access, or one at an offset that is no multiple of 4, is a fault of the host
program, and a 32-bit access at a multiple of 4 is accepted. -/
def Obligations.BadAccessFaults : Prop :=
  ∀ (s : State) (rest : List HostOp) (w : Width) (a : BusAddr) (o : Nat) (v : Word), windowOffset a = some o →
    ((w ≠ .word ∨ o % 4 ≠ 0) →
      (s.host = .read w a :: rest → step s = .fault .busError) ∧
      (s.host = .write w a v :: rest → step s = .fault .busError)) ∧
    (w = .word → o % 4 = 0 →
      (s.host = .read w a :: rest → ∃ t, step s = .next t) ∧
      (s.host = .write w a v :: rest → ∃ t, step s = .next t))

/-- 93_implementation_defined.md: no behaviour of the BCU is stuck. With a host that keeps to accepted accesses every
step answers a next state, and the rest of the script is still of that kind. -/
def Obligations.WellBehavedHostNeverStops : Prop :=
  ∀ s : State, WellBehavedHost s → ∃ t, step s = .next t ∧ WellBehavedHost t

/-- 20_memory.md R57, R59: an accepted access is one step: a read gives the host the register's value and changes
nothing in the BCU, a write has the effect of its offset. -/
def Obligations.HostAccessStep : Prop :=
  ∀ (s : State) (rest : List HostOp) (o : Nat) (v : Word), o < 256 → o % 4 = 0 →
    (s.host = .read .word (.window o) :: rest →
      step s = .next { s with host := rest, rdata := readOffset s o :: s.rdata }) ∧
    (s.host = .write .word (.window o) v :: rest →
      step s = .next (writeOffset o v { s with host := rest }))

/-- 20_memory.md R56: an access to a reserved offset is answered; it reads 0 and ignores writes, even while BUSY = 1 and
without OVR. Reserved bits of STATUS and CTRL read 0 and ignore writes; those of CFG0 and CFG1 are stored as written
and checked by INIT. -/
def Obligations.ReservedOffsetsAndBits : Prop :=
  (∀ (s : State) (rest : List HostOp) (o : Nat) (v : Word),
    o = 0x00C ∨ (0x01C ≤ o ∧ o ≤ 0x03C ∧ o % 4 = 0) ∨ o = 0x094 ∨ (0x0AC ≤ o ∧ o ≤ 0x0BC ∧ o % 4 = 0) →
      (s.host = .read .word (.window o) :: rest → step s = .next { s with host := rest, rdata := 0 :: s.rdata }) ∧
      (s.host = .write .word (.window o) v :: rest → step s = .next { s with host := rest })) ∧
  (∀ (s : State) (v : Word),
    (readOffset (writeOffset 0x004 v s) 0x004).extractLsb' 4 4 = 0 ∧
    (readOffset (writeOffset 0x004 v s) 0x004).extractLsb' 12 20 = 0 ∧
    (readOffset (writeOffset 0x008 v s) 0x008).extractLsb' 1 31 = 0) ∧
  (∀ (s : State) (v : Word), s.busy = false → s.ctxv = false →
    readOffset (writeOffset 0x010 v s) 0x010 = v ∧ readOffset (writeOffset 0x014 v s) 0x014 = v) ∧
  (∀ s : State, s.ctxv = false →
    s.cfg0.getLsbD 11 = true ∨ s.cfg0.extractLsb' 20 12 ≠ 0 ∨ s.cfg1.extractLsb' 15 17 ≠ 0 → FailsWith .init s 2)

/-- 20_memory.md R65: while BUSY = 1 a write to any offset but STATUS, CTRL and the reserved ones is dropped and sets
OVR; STATUS and CTRL writes take effect; reads are not dropped. -/
def Obligations.WritesWhileBusyAreDropped : Prop :=
  ∀ (s : State) (o : Nat) (v : Word), s.busy = true → o < 256 → o % 4 = 0 →
    (o ≠ 0x004 → o ≠ 0x008 → regAt o ≠ none → writeOffset o v s = { s with ovr := true }) ∧
    (regAt o = none → writeOffset o v s = s) ∧
    writeOffset 0x004 v s = { s with done := s.done && !v.getLsbD 1, ovr := s.ovr && !v.getLsbD 3 } ∧
    writeOffset 0x008 v s = { s with ie := v.getLsbD 0 } ∧
    (∀ h rest, s.host = .read .word (.window o) :: rest → h = readOffset s o →
      step s = .next { s with host := rest, rdata := h :: s.rdata })

/-- 20_memory.md R58 and 10_state.md R33: with BUSY = 0 a write to ERR or OUT is answered and ignored, and so is one to
CFG0..CFG2 while CTXV = 1, without OVR; while BUSY = 1 the rule R65 applies to those offsets first. A write to STATUS
leaves its read-only fields. Reads of CFG0..CFG2 give the registers' values. -/
def Obligations.ReadOnlyAndLockedWritesIgnored : Prop :=
  ∀ (s : State) (rest : List HostOp) (v : Word),
    (∀ o, o = 0x0A8 ∨ (0x0C0 ≤ o ∧ o < 0x100 ∧ o % 4 = 0) →
      s.host = .write .word (.window o) v :: rest →
        (s.busy = false → step s = .next { s with host := rest }) ∧
        (s.busy = true → step s = .next { s with host := rest, ovr := true })) ∧
    (∀ o, o = 0x010 ∨ o = 0x014 ∨ o = 0x018 → s.ctxv = true →
      s.host = .write .word (.window o) v :: rest →
        (s.busy = false → step s = .next { s with host := rest }) ∧
        (s.busy = true → step s = .next { s with host := rest, ovr := true })) ∧
    ((writeOffset 0x004 v s).latch = s.latch ∧ (writeOffset 0x004 v s).ctxv = s.ctxv ∧
      (writeOffset 0x004 v s).result = s.result) ∧
    (readOffset s 0x010 = s.cfg0 ∧ readOffset s 0x014 = s.cfg1 ∧ readOffset s 0x018 = s.cfg2)

/-- 20_memory.md R59 with 10_state.md R29 to R37: with BUSY = 0, a register the host may write reads back what was
written (CTRL its bit 0, the others all 32 bits) and no other register changes; of CTRL that is all a write changes. -/
def Obligations.IdleWriteThenRead : Prop :=
  ∀ (s : State) (v : Word), s.busy = false →
    (∀ r r' : Reg, (r ∈ [Reg.cfg0, .cfg1, .cfg2] ∧ s.ctxv = false ∨ (∃ p, r = .tile p) ∨ (∃ k, r = .blockWord k) ∨
      r = .endp ∨ ∃ k, r = .sel k) →
      readReg (writeReg r v s) r' = if r' = r then v else readReg s r') ∧
    (∀ r' : Reg, readReg (writeReg .ctrl v s) r' = if r' = .ctrl then v &&& 1 else readReg s r') ∧
    writeReg .ctrl v s = { s with ie := v.getLsbD 0 }

/-- 10_state.md R23: the bits of STATUS, and what a host write to it does. -/
def Obligations.StatusWordLayout : Prop :=
  ∀ (s : State) (v : Word),
    (readReg s .status).getLsbD 0 = s.latch.isSome ∧ (readReg s .status).getLsbD 1 = s.done ∧
    (readReg s .status).getLsbD 2 = s.ctxv ∧ (readReg s .status).getLsbD 3 = s.ovr ∧
    (readReg s .status).extractLsb' 4 4 = 0 ∧ (readReg s .status).extractLsb' 8 4 = s.result ∧
    (readReg s .status).extractLsb' 12 20 = 0 ∧
    writeReg .status v s =
      { s with done := if v.getLsbD 1 then false else s.done, ovr := if v.getLsbD 3 then false else s.ovr }

/-- 60_exceptions.md R267, R268 and 10_state.md R29, R41: IRQ is CTRL.IE and STATUS.DONE at every instant; it rises at
the completion of any command when IE = 1 and when the host sets IE while DONE = 1, and falls when the host clears DONE
or IE or issues a command. -/
def Obligations.InterruptLevel : Prop :=
  (∀ s : State, s.irq = ((readReg s .ctrl).getLsbD 0 && (readReg s .status).getLsbD 1)) ∧
  (∀ (w : Word) (s t : State), runWord w s = .next t → t.irq = s.ie) ∧
  (∀ (s : State) (v : Word), (writeReg .ctrl v s).irq = (v.getLsbD 0 && s.done)) ∧
  (∀ (s : State) (v : Word), v.getLsbD 1 = true → (writeReg .status v s).irq = false) ∧
  (∀ (s : State) (w : Word), s.busy = false → (writeReg .cmd w s).irq = false)

/-- 20_memory.md R52, R53, with R54 and 10_state.md R37: byte lane j of an offset carries bits 8j+7:8j of the register
there; the channels R, G, B, A of TILE[p] and OUT[p] are the bytes 0 to 3 of their registers; BLOCK[i] is the byte at
0x080 + i; SEL(k, p) is a nibble of SEL0..SEL3. -/
def Obligations.ByteLanesAreLittleEndian : Prop :=
  (∀ (s : State) (o : Nat) (j : Fin 4), o % 4 = 0 →
    windowByte s (o + j.val) = (readOffset s o).extractLsb' (8 * j.val) 8) ∧
  (∀ (s : State) (p : Fin 16) (j : Fin 4),
    channel (tilePixel s.tile p) j.val = (windowByte s (0x040 + 4 * p.val + j.val)).toNat ∧
    channel (pixelOfWord s.out[p]) j.val = (windowByte s (0x0C0 + 4 * p.val + j.val)).toNat) ∧
  (∀ (s : State) (i : Fin 16), windowByte s (0x080 + i.val) = s.block[i]) ∧
  (∀ (s : State) (k : Fin 2) (p : Fin 16),
    selNibble s.sel k p =
      ((readReg s (.sel ⟨2 * k.val + p.val / 8, by omega⟩)).extractLsb' (4 * (p.val % 8)) 4).toNat)

/-! ## Command life cycle -/

/-- 60_exceptions.md R265: a CMD write with BUSY = 0 sets BUSY, clears DONE and latches the word and a latency of at
least 1 that depends on the word and the command's inputs alone; with BUSY = 1 it is dropped and sets OVR. -/
def Obligations.IssueLatchesTheWord : Prop :=
  ∃ latency : Word → Config.Inputs → Nat, (∀ w x, 1 ≤ latency w x) ∧
    ∀ (s : State) (w : Word),
      (s.busy = false → writeReg .cmd w s =
        { s with done := false, latch := some ⟨w, latency w (inputsOf s)⟩ } ∧ (writeReg .cmd w s).busy = true) ∧
      (s.busy = true → writeReg .cmd w s = { s with ovr := true })

/-- 60_exceptions.md R266: the last unit step runs the command the latched word decodes to, whether the unit steps by
itself, by a script's tick or under WAIT; so does the step after withFetchWord. Earlier unit steps only count. -/
def Obligations.StepRunsTheDecodedCommand : Prop :=
  ∀ (s : State) (f : InFlight) (i : Instr) (rest : List HostOp), s.latch = some f → decodeWord f.word = .ok i →
    (s.host = [] → f.remaining ≤ 1 → step s = exec i s) ∧
    (s.host = .tick :: rest → f.remaining ≤ 1 → step s = exec i { s with host := rest }) ∧
    (s.host = .wait :: rest → step s = exec i s) ∧
    (s.host = [] → 1 < f.remaining → step s = .next { s with latch := some ⟨f.word, f.remaining - 1⟩ }) ∧
    step (s.withFetchWord 32 f.word.toNat) = exec i (s.withFetchWord 32 f.word.toNat)

/-- 60_exceptions.md R266, 70_reset_and_hazards.md R294: no rule depends on the latency. A host that lets the unit's
remaining steps pass sees the command's completion on the registers at issue, however many steps remain; WAIT gives
that same state, with STATUS read. -/
def Obligations.LatencyIsUnobservable : Prop :=
  ∀ (s t : State) (w : Word) (n : Nat) (rest : List HostOp), s.latch = some ⟨w, n + 1⟩ →
    runWord w { s with host := rest } = .next t →
      (s.host = List.replicate (n + 1) .tick ++ rest → Host.Core.run Sys2Proof.core (n + 1) s = .next t) ∧
      (s.host = .wait :: rest →
        Host.Core.run Sys2Proof.core 2 s = .next { t with rdata := readReg t .status :: t.rdata })

/-- 20_memory.md R60: while a command stays in flight every step leaves the data registers, the configuration, CTXV and
RESULT as they were at issue, and the same command in flight. -/
def Obligations.InFlightCommandKeepsRegisters : Prop :=
  ∀ s t : State, step s = .next t → s.busy = true → t.busy = true →
    t.tile = s.tile ∧ t.block = s.block ∧ t.endp = s.endp ∧ t.sel = s.sel ∧ t.err = s.err ∧ t.out = s.out ∧
    t.cfg0 = s.cfg0 ∧ t.cfg1 = s.cfg1 ∧ t.cfg2 = s.cfg2 ∧ t.ctxv = s.ctxv ∧ t.result = s.result ∧
    t.latch.map InFlight.word = s.latch.map InFlight.word

/-- 10_state.md R24, R25, R28: BUSY falls only by completion or hardware reset, DONE rises only at a completion, RESULT
changes only at a completion or by hardware reset. -/
def Obligations.StatusChangesOnlyAtCompletion : Prop :=
  ∀ s t : State, step s = .next t →
    (s.busy = true → t.busy = false → t.done = true ∨ ∃ rest, s.host = .hardReset :: rest) ∧
    (s.done = false → t.done = true → s.busy = true ∧ t.busy = false) ∧
    (t.result ≠ s.result → (s.busy = true ∧ t.busy = false ∧ t.done = true) ∨ ∃ rest, s.host = .hardReset :: rest)

/-- 10_state.md R26: CTXV is set by a successful INIT alone and cleared by a successful DESTROY or hardware reset
alone. -/
def Obligations.ContextChangesOnlyByItsCommands : Prop :=
  ∀ s t : State, step s = .next t →
    (s.ctxv = false → t.ctxv = true →
      s.latch.map InFlight.word = some (encode .init) ∧ t.result = 0 ∧
      validate s.cfg0 s.cfg1 s.cfg2 = .success) ∧
    (s.ctxv = true → t.ctxv = false →
      (s.latch.map InFlight.word = some (encode .destroy) ∧ t.result = 0) ∨ ∃ rest, s.host = .hardReset :: rest)

/-- 70_reset_and_hazards.md R296: while a context exists nothing but hardware reset changes CFG0..CFG2. -/
def Obligations.ConfigurationFixedInSession : Prop :=
  ∀ s t : State, step s = .next t → s.ctxv = true → (∀ rest, s.host ≠ .hardReset :: rest) →
    t.cfg0 = s.cfg0 ∧ t.cfg1 = s.cfg1 ∧ t.cfg2 = s.cfg2

/-- 10_state.md R27: OVR is set by every host write dropped because BUSY = 1 and by nothing else; it is cleared by the
host writing 1 to STATUS bit 3 or by hardware reset and by nothing else. -/
def Obligations.OverrunOnlyByDroppedWrite : Prop :=
  ∀ s t : State, step s = .next t →
    (s.ovr = false → t.ovr = true → s.busy = true ∧
      ∃ a v rest o, s.host = .write .word a v :: rest ∧ windowOffset a = some o ∧ regAt o ≠ none ∧
        o ≠ 0x004 ∧ o ≠ 0x008) ∧
    (s.ovr = true → t.ovr = false →
      (∃ rest, s.host = .hardReset :: rest) ∨
      ∃ a v rest, s.host = .write .word a v :: rest ∧ windowOffset a = some 0x004 ∧ v.getLsbD 3 = true) ∧
    (∀ a v rest o, s.host = .write .word a v :: rest → windowOffset a = some o →
      (s.busy = true → regAt o ≠ none → o ≠ 0x004 → o ≠ 0x008 → t.ovr = true) ∧
      (o = 0x004 → v.getLsbD 3 = true → t.ovr = false)) ∧
    (∀ rest, s.host = .hardReset :: rest → t.ovr = false)

/-- 60_exceptions.md R266, R261: every command completes from every state: BUSY clear, DONE set, RESULT 0, 2, 3 or 4. -/
def Obligations.EveryCommandCompletes : Prop :=
  ∀ (i : Instr) (s : State), ∃ t, exec i s = .next t ∧ t.busy = false ∧ t.done = true ∧
    (t.result = 0 ∨ t.result = 2 ∨ t.result = 3 ∨ t.result = 4)

/-- 60_exceptions.md R264: a failed command, defined or not, writes RESULT, sets DONE, clears BUSY and changes no other
state. -/
def Obligations.FailedCommandChangesOnlyStatus : Prop :=
  ∀ (w : Word) (s t : State), runWord w s = .next t → t.result ≠ 0 →
    t = { s with result := t.result, done := true, latch := none }

/-- 60_exceptions.md R262: the checks of every command in their order, and the code each gives. -/
def Obligations.CommonChecksInOrder : Prop :=
  (∀ (w : Word) (s : State), (∀ i, w ≠ encode i) →
    runWord w s = .next { s with result := 2, done := true, latch := none }) ∧
  (∀ s : State, s.ctxv = true → FailsWith .init s 3) ∧
  (∀ s : State, s.ctxv = false → FailsWith .destroy s 3 ∧ FailsWith .reset s 3) ∧
  (∀ (i : Instr) (s : State), i.op.isContext = false → s.ctxv = false → FailsWith i s 3) ∧
  (∀ (i : Instr) (s : State), i.op.isContext = false → s.ctxv = true →
    (s.cfg0.extractLsb' 0 3).toNat ≠ i.fmt.code → FailsWith i s 2) ∧
  (∀ s : State, s.ctxv = false → validate s.cfg0 s.cfg1 s.cfg2 ≠ .success →
    FailsWith .init s (validate s.cfg0 s.cfg1 s.cfg2).code) ∧
  (∀ s : State, Ready .bc1 s → (∃ p, 3 < selNibble s.sel 0 p) → FailsWith .packBc1 s 2) ∧
  (∀ s : State, Ready .bc4 s → (∃ p, 7 < selNibble s.sel 0 p) → FailsWith .packBc4 s 2) ∧
  (∀ s : State, Ready .bc5 s → (∃ k p, 7 < selNibble s.sel k p) → FailsWith .packBc5 s 2) ∧
  (∀ (i : Instr) (s : State), i.op ≠ .pack → i.op.isContext = false → Ready i.fmt s →
    ∃ t, exec i s = .next t ∧ t.result = 0)

/-- 30_encoding.md R85: a command writes the registers listed for it, RESULT, DONE and BUSY, and nothing else. -/
def Obligations.CommandsWriteOnlyTheirRegisters : Prop :=
  ∀ (i : Instr) (s t : State), exec i s = .next t → SameBut (partsWritten i) s t

/-- The frame of every command as the host sees it (30_encoding.md R85, 20_memory.md R50): every byte of the window
outside STATUS and the registers the command writes reads as before. -/
def Obligations.WindowBytesOutsideResultsKept : Prop :=
  ∀ (i : Instr) (s t : State) (o : Nat), exec i s = .next t → o < 256 → ¬ (0x004 ≤ o ∧ o < 0x008) →
    (∀ part, partAtByte o = some part → part ∉ partsWritten i) → windowByte t o = windowByte s o

/-- 60_exceptions.md R278, 44_quantizer.md R248: a command's result code and every register it writes are a function of
the registers it reads. -/
def Obligations.ResultsAreAFunctionOfReads : Prop :=
  ∀ (i : Instr) (s₁ s₂ t₁ t₂ : State), SameReads i s₁ s₂ → exec i s₁ = .next t₁ → exec i s₂ = .next t₂ →
    t₁.result = t₂.result ∧ (t₁.result = 0 → AgreeOn (partsWritten i) t₁ t₂)

/-- 70_reset_and_hazards.md R293, 40_context.md R125: after RESET no run can observe anything that the data registers
held before it. Two units with the same configuration and the same host script, whatever else they held, agree after
every number of steps on the context, the configuration, every data register and the command in flight. It rests on two
choices of the model: the script is data of the state (entry 1), and the latency is a function of the word and the
command's inputs (entry 4, DEDUCED, unsafe). -/
def Obligations.RunsForgetTheStateBeforeReset : Prop :=
  ∀ (s₁ s₂ t₁ t₂ u₁ : State) (k : Nat), s₁.ctxv = true → s₂.ctxv = true →
    s₁.cfg0 = s₂.cfg0 → s₁.cfg1 = s₂.cfg1 → s₁.cfg2 = s₂.cfg2 → s₁.host = s₂.host →
    exec .reset s₁ = .next t₁ → exec .reset s₂ = .next t₂ →
    Host.Core.run Sys2Proof.core k t₁ = .next u₁ →
      ∃ u₂ : State, Host.Core.run Sys2Proof.core k t₂ = .next u₂ ∧ SameUnit u₁ u₂

/-! ## Context commands -/

/-- 40_context.md R121 with 10_state.md R44: INIT with no context and a valid configuration opens one and zeroes every
data register; CFG0..CFG2 stay. With a context it ends with BadContext, else with the code of Validate(). -/
def Obligations.InitOpensContext : Prop :=
  ∀ s : State,
    (s.ctxv = false → validate s.cfg0 s.cfg1 s.cfg2 = .success →
      Completes .init s [.ctxv, .tile, .block, .endp, .sel, .err, .out] fun t =>
        t.ctxv = true ∧ (∀ p : Fin 16, t.tile[p] = 0) ∧ (∀ i : Fin 16, t.block[i] = 0) ∧ t.endp = 0 ∧
        (∀ k : Fin 4, t.sel[k] = 0) ∧ t.err = 0 ∧ ∀ p : Fin 16, t.out[p] = 0) ∧
    (s.ctxv = true → FailsWith .init s 3) ∧
    (s.ctxv = false → validate s.cfg0 s.cfg1 s.cfg2 ≠ .success →
      FailsWith .init s (validate s.cfg0 s.cfg1 s.cfg2).code)

/-- 40_context.md R124: Validate() and the order of its checks, in the bits of 10_state.md R30 to R32. -/
def Obligations.ValidateChecksInOrder : Prop :=
  ∀ cfg0 cfg1 cfg2 : Word, validate cfg0 cfg1 cfg2 =
    if cfg0.getLsbD 11 = true ∨ cfg0.extractLsb' 20 12 ≠ 0 ∨ cfg1.extractLsb' 15 17 ≠ 0 then .badParameter
    else if cfg0.extractLsb' 8 3 = 7 then .badParameter
    else if cfg1.extractLsb' 8 7 = 0 ∨ cfg1.extractLsb' 8 7 > 64 then .badParameter
    else if cfg0.getLsbD 3 = true ∧ (cfg2.extractLsb' 0 8 = 0 ∨ cfg2.extractLsb' 8 8 = 0 ∨
        cfg2.extractLsb' 16 8 = 0 ∨ cfg2.extractLsb' 24 8 = 0) then .badParameter
    else if cfg0.extractLsb' 0 3 ≠ 1 ∧ cfg0.extractLsb' 0 3 ≠ 2 ∧ cfg0.extractLsb' 0 3 ≠ 3 ∧
        cfg0.extractLsb' 0 3 ≠ 4 then .initializationFailed
    else if cfg0.getLsbD 7 = true ∧ cfg0.getLsbD 6 = false then .initializationFailed
    else if cfg0.extractLsb' 0 3 = 4 ∧ cfg1.extractLsb' 0 8 = 0 then .initializationFailed
    else .success

/-- 40_context.md R122, R123 with 10_state.md R44: with a context, DESTROY and RESET zero every data register; DESTROY
clears CTXV, RESET keeps it. Without one both end with BadContext. -/
def Obligations.DestroyAndResetZeroData : Prop :=
  ∀ s : State,
    (s.ctxv = true →
      Completes .destroy s [.ctxv, .tile, .block, .endp, .sel, .err, .out] fun t =>
        t.ctxv = false ∧ (∀ p : Fin 16, t.tile[p] = 0) ∧ (∀ i : Fin 16, t.block[i] = 0) ∧ t.endp = 0 ∧
        (∀ k : Fin 4, t.sel[k] = 0) ∧ t.err = 0 ∧ ∀ p : Fin 16, t.out[p] = 0) ∧
    (s.ctxv = true →
      Completes .reset s [.tile, .block, .endp, .sel, .err, .out] fun t =>
        t.ctxv = true ∧ (∀ p : Fin 16, t.tile[p] = 0) ∧ (∀ i : Fin 16, t.block[i] = 0) ∧ t.endp = 0 ∧
        (∀ k : Fin 4, t.sel[k] = 0) ∧ t.err = 0 ∧ ∀ p : Fin 16, t.out[p] = 0) ∧
    (s.ctxv = false → FailsWith .destroy s 3 ∧ FailsWith .reset s 3)

/-! ## PACK and UNPACK -/

/-- 41_bc1.md R147: PACK.BC1 with selectors 0..3 writes the bytes of the block and nothing else; with a larger one it
ends with BadParameter. -/
def Obligations.PackBc1Result : Prop :=
  ∀ s : State, Ready .bc1 s →
    ((∀ p, selNibble s.sel 0 p ≤ 3) →
      Completes .packBc1 s [.block] fun t =>
        t.block[0] = s.endp.extractLsb' 0 8 ∧ t.block[1] = s.endp.extractLsb' 8 8 ∧
        t.block[2] = s.endp.extractLsb' 16 8 ∧ t.block[3] = s.endp.extractLsb' 24 8 ∧
        (∀ j : Fin 4, t.block[4 + j.val].toNat =
          (∑ p : Fin 16, selNibble s.sel 0 p * 2 ^ (2 * p.val)) / 2 ^ (8 * j.val) % 256) ∧
        ∀ j : Fin 8, t.block[8 + j.val] = 0) ∧
    ((∃ p, 3 < selNibble s.sel 0 p) → FailsWith .packBc1 s 2)

/-- 42_bc4_bc5.md R166, R168: PACK.BC4 and PACK.BC5 with selectors 0..7 write the bytes of Bc4Bytes for each channel and
nothing else; with a larger one they end with BadParameter. -/
def Obligations.PackBc4Bc5Result : Prop :=
  (∀ s : State, Ready .bc4 s →
    ((∀ p, selNibble s.sel 0 p ≤ 7) →
      Completes .packBc4 s [.block] fun t =>
        t.block[0] = s.endp.extractLsb' 0 8 ∧ t.block[1] = s.endp.extractLsb' 8 8 ∧
        (∀ j : Fin 6, t.block[2 + j.val].toNat =
          (∑ p : Fin 16, selNibble s.sel 0 p * 2 ^ (3 * p.val)) / 2 ^ (8 * j.val) % 256) ∧
        ∀ j : Fin 8, t.block[8 + j.val] = 0) ∧
    ((∃ p, 7 < selNibble s.sel 0 p) → FailsWith .packBc4 s 2)) ∧
  (∀ s : State, Ready .bc5 s →
    ((∀ k p, selNibble s.sel k p ≤ 7) →
      Completes .packBc5 s [.block] fun t =>
        t.block[0] = s.endp.extractLsb' 0 8 ∧ t.block[1] = s.endp.extractLsb' 8 8 ∧
        (∀ j : Fin 6, t.block[2 + j.val].toNat =
          (∑ p : Fin 16, selNibble s.sel 0 p * 2 ^ (3 * p.val)) / 2 ^ (8 * j.val) % 256) ∧
        t.block[8] = s.endp.extractLsb' 16 8 ∧ t.block[9] = s.endp.extractLsb' 24 8 ∧
        ∀ j : Fin 6, t.block[10 + j.val].toNat =
          (∑ p : Fin 16, selNibble s.sel 1 p * 2 ^ (3 * p.val)) / 2 ^ (8 * j.val) % 256) ∧
    ((∃ k p, 7 < selNibble s.sel k p) → FailsWith .packBc5 s 2))

/-- 41_bc1.md R148 with the layout of 30_encoding.md R75: UNPACK.BC1 of any block. -/
def Obligations.UnpackBc1Result : Prop :=
  ∀ s : State, Ready .bc1 s →
    Completes .unpackBc1 s [.out, .endp, .sel] fun t =>
      t.endp = s.block[3] ++ s.block[2] ++ s.block[1] ++ s.block[0] ∧
      ∀ p : Fin 16,
        let a := s.block[4 + p.val / 4].toNat / 2 ^ (2 * (p.val % 4)) % 4
        selNibble t.sel 0 p = a ∧ selNibble t.sel 1 p = 0 ∧
        t.out[p] = wordOfPixel ((bc1Pal (s.cfg0.extractLsb' 4 2).toNat (s.block[1] ++ s.block[0]).toNat
          (s.block[3] ++ s.block[2]).toNat).getD a default)

/-- 42_bc4_bc5.md R167, R169 with the layout of 30_encoding.md R77, R78: UNPACK.BC4 and UNPACK.BC5 of any block. -/
def Obligations.UnpackBc4Bc5Result : Prop :=
  (∀ s : State, Ready .bc4 s →
    Completes .unpackBc4 s [.out, .endp, .sel] fun t =>
      t.endp = (0 : Half) ++ s.block[1] ++ s.block[0] ∧
      ∀ p : Fin 16,
        let a := (∑ j : Fin 6, s.block[2 + j.val].toNat * 2 ^ (8 * j.val)) / 2 ^ (3 * p.val) % 8
        selNibble t.sel 0 p = a ∧ selNibble t.sel 1 p = 0 ∧
        t.out[p] = wordOfPixel ⟨(bc4Pal s.block[0].toNat s.block[1].toNat).getD a 0, 0, 0, 255⟩) ∧
  (∀ s : State, Ready .bc5 s →
    Completes .unpackBc5 s [.out, .endp, .sel] fun t =>
      t.endp = s.block[9] ++ s.block[8] ++ s.block[1] ++ s.block[0] ∧
      ∀ p : Fin 16,
        let a := (∑ j : Fin 6, s.block[2 + j.val].toNat * 2 ^ (8 * j.val)) / 2 ^ (3 * p.val) % 8
        let b := (∑ j : Fin 6, s.block[10 + j.val].toNat * 2 ^ (8 * j.val)) / 2 ^ (3 * p.val) % 8
        selNibble t.sel 0 p = a ∧ selNibble t.sel 1 p = b ∧
        t.out[p] = wordOfPixel ⟨(bc4Pal s.block[0].toNat s.block[1].toNat).getD a 0,
          (bc4Pal s.block[8].toNat s.block[9].toNat).getD b 0, 0, 255⟩)

/-- 43_bc7.md R195, R194, R193: UNPACK.BC7 writes BC7Decode of the block to OUT alone; a block with BLOCK[0] = 0 gives
sixteen zero pixels, one of modes 0..3 gives A = 255 everywhere. -/
def Obligations.UnpackBc7Result : Prop :=
  ∀ s : State, Ready .bc7 s →
    Completes .unpackBc7 s [.out] fun t =>
      t.out = outWords (bc7Decode (blockBits s.block)) ∧
      (s.block[0] = 0 → ∀ p : Fin 16, t.out[p] = 0) ∧
      (s.block[0].toNat % 16 ≠ 0 → ∀ p : Fin 16, t.out[p].extractLsb' 24 8 = 255)

/-- 43_bc7.md R181 to R192 with the layout of 30_encoding.md R79 to R81: UNPACK.BC7 of a block of each mode, every field
at its bit position. `mode` gives the modes without rotation: endpoint k = 2s + e of channel c, the subset of a pixel,
the anchors, and the place, width and weights of the indices. Modes 4 and 5 have two sets of indices and a rotation. -/
def Obligations.UnpackBc7EveryMode : Prop :=
  ∀ s : State, Ready .bc7 s →
    let bits := ∑ i : Fin 16, s.block[i].toNat * 2 ^ (8 * i.val)
    let field := fun pos n => bits / 2 ^ pos % 2 ^ n
    let index := fun (anchors : List Nat) (start n p : Nat) =>
      field (start + n * p - (anchors.filter (· < p)).length) (if p ∈ anchors then n - 1 else n)
    let w2 := fun i => [0, 21, 43, 64].getD i 0
    let w3 := fun i => [0, 9, 18, 27, 37, 46, 55, 64].getD i 0
    let w4 := fun i => [0, 4, 9, 13, 17, 21, 26, 30, 34, 38, 43, 47, 51, 55, 60, 64].getD i 0
    let mix := fun (e0 e1 w : Nat) => ((64 - w) * e0 + w * e1 + 32) / 64
    let u5 := fun v => 8 * v + v / 4
    let u6 := fun v => 4 * v + v / 16
    let u7 := fun v => 2 * v + v / 64
    let mode := fun (endpoint : Nat → Nat → Nat) (subset : Nat → Nat) (anchors : List Nat) (start n : Nat)
        (weight : Nat → Nat) =>
      Completes .unpackBc7 s [.out] fun t => ∀ p : Fin 16,
        let x := fun c => mix (endpoint (2 * subset p.val) c) (endpoint (2 * subset p.val + 1) c)
          (weight (index anchors start n p.val))
        t.out[p] = wordOfPixel ⟨x 0, x 1, x 2, x 3⟩
    let rotated := fun (endpoint : Nat → Nat → Nat) (wc wa : Nat → Nat) (rot : Nat) =>
      Completes .unpackBc7 s [.out] fun t => ∀ p : Fin 16,
        let x := fun c => mix (endpoint 0 c) (endpoint 1 c) (if c = 3 then wa p.val else wc p.val)
        t.out[p] = wordOfPixel (if rot = 1 then ⟨x 3, x 1, x 2, x 0⟩ else if rot = 2 then ⟨x 0, x 3, x 2, x 1⟩
          else if rot = 3 then ⟨x 0, x 1, x 3, x 2⟩ else ⟨x 0, x 1, x 2, x 3⟩)
    (s.block[0].toNat % 2 = 1 → mode
      (fun k c => if c = 3 then 255 else u5 (2 * field (5 + 24 * c + 4 * k) 4 + field (77 + k) 1))
      (bc7P3 (field 1 4)) [0, bc7A3a (field 1 4), bc7A3b (field 1 4)] 83 3 w3) ∧
    (s.block[0].toNat % 4 = 2 → mode
      (fun k c => if c = 3 then 255 else u7 (2 * field (8 + 24 * c + 6 * k) 6 + field (80 + k / 2) 1))
      (bc7P2 (field 2 6)) [0, bc7A2 (field 2 6)] 82 3 w3) ∧
    (s.block[0].toNat % 8 = 4 → mode
      (fun k c => if c = 3 then 255 else u5 (field (9 + 30 * c + 5 * k) 5))
      (bc7P3 (field 3 6)) [0, bc7A3a (field 3 6), bc7A3b (field 3 6)] 99 2 w2) ∧
    (s.block[0].toNat % 16 = 8 → mode
      (fun k c => if c = 3 then 255 else 2 * field (10 + 28 * c + 7 * k) 7 + field (94 + k) 1)
      (bc7P2 (field 4 6)) [0, bc7A2 (field 4 6)] 98 2 w2) ∧
    (s.block[0].toNat % 32 = 16 →
      let i1 := fun p => w2 (index [0] 50 2 p)
      let i2 := fun p => w3 (index [0] 81 3 p)
      rotated (fun k c => if c = 3 then u6 (field (38 + 6 * k) 6) else u5 (field (8 + 10 * c + 5 * k) 5))
        (if field 7 1 = 0 then i1 else i2) (if field 7 1 = 0 then i2 else i1) (field 5 2)) ∧
    (s.block[0].toNat % 64 = 32 → rotated
      (fun k c => if c = 3 then field (50 + 8 * k) 8 else u7 (field (8 + 14 * c + 7 * k) 7))
      (fun p => w2 (index [0] 66 2 p)) (fun p => w2 (index [0] 97 2 p)) (field 6 2)) ∧
    (s.block[0].toNat % 128 = 64 → mode
      (fun k c => 2 * field (7 + 14 * c + 7 * k) 7 + field (63 + k) 1) (fun _ => 0) [0] 65 4 w4) ∧
    (s.block[0].toNat = 128 → mode
      (fun k c => u6 (2 * field (14 + 20 * c + 5 * k) 5 + field (94 + k) 1))
      (bc7P2 (field 8 6)) [0, bc7A2 (field 8 6)] 98 2 w2)

/-- 30_encoding.md R80, 43_bc7.md R187 to R189: in every mode and partition the fields take 128 bits, and the partition
and anchor tables have the properties the spec requires of them. -/
def Obligations.Bc7FieldsTakeTheBlock : Prop :=
  (∀ m < 8, ∀ part, (m + 1) + (bc7Widths (bc7Mode m) part).sum = 128) ∧
  (∀ r p, bc7P2 r p < 2 ∧ bc7P3 r p < 3) ∧
  (∀ r, bc7P2 r 0 = 0 ∧ bc7P3 r 0 = 0 ∧ bc7P2 r (bc7A2 r) = 1 ∧ bc7P3 r (bc7A3a r) = 1 ∧ bc7P3 r (bc7A3b r) = 2) ∧
  (∀ r, 1 ≤ bc7A2 r ∧ bc7A2 r ≤ 15 ∧ 1 ≤ bc7A3a r ∧ bc7A3a r ≤ 15 ∧ 1 ≤ bc7A3b r ∧ bc7A3b r ≤ 15)

/-! ## Palettes and colours -/

/-- 41_bc1.md R145, R146: the Ideal palette in both modes, and what every vendor palette must keep. -/
def Obligations.Bc1PaletteRules : Prop :=
  ∀ c0 c1 : Nat,
    let e0 := unpack565 c0
    let e1 := unpack565 c1
    (c0 > c1 → bc1Pal 0 c0 c1 =
      [e0, e1, ⟨(2 * e0.r + e1.r) / 3, (2 * e0.g + e1.g) / 3, (2 * e0.b + e1.b) / 3, 255⟩,
        ⟨(e0.r + 2 * e1.r) / 3, (e0.g + 2 * e1.g) / 3, (e0.b + 2 * e1.b) / 3, 255⟩]) ∧
    (c0 ≤ c1 → bc1Pal 0 c0 c1 =
      [e0, e1, ⟨(e0.r + e1.r) / 2, (e0.g + e1.g) / 2, (e0.b + e1.b) / 2, 255⟩, ⟨0, 0, 0, 0⟩]) ∧
    (∀ mode, (bc1Pal mode c0 c1).length = 4 ∧ (bc1Pal mode c0 c1).getD 0 default = e0 ∧
      (bc1Pal mode c0 c1).getD 1 default = e1 ∧ e0.a = 255 ∧ e1.a = 255 ∧
      ((bc1Pal mode c0 c1).getD 2 default).a = 255 ∧
      (c0 ≤ c1 → (bc1Pal mode c0 c1).getD 3 default = ⟨0, 0, 0, 0⟩) ∧
      (c0 > c1 → ((bc1Pal mode c0 c1).getD 3 default).a = 255))

/-- 41_bc1.md R142, R143, R144: Q5 and Q6 round to nearest, Q565 joins three quantized channels, X5 and X6 expand them,
Unpack565 expands the fields of a word, and expanding a quantized channel misses it by at most 4 or 2. -/
def Obligations.Bc1QuantizationBound : Prop :=
  (∀ v < 256, q5 v = (v * 31 + 127) / 255 ∧ q6 v = (v * 63 + 127) / 255 ∧ q5 v < 32 ∧ q6 v < 64 ∧
    2 * (255 * q5 v) ≤ 2 * (31 * v) + 255 ∧ 2 * (31 * v) ≤ 2 * (255 * q5 v) + 255 ∧
    2 * (255 * q6 v) ≤ 2 * (63 * v) + 255 ∧ 2 * (63 * v) ≤ 2 * (255 * q6 v) + 255 ∧
    x5 (q5 v) ≤ v + 4 ∧ v ≤ x5 (q5 v) + 4 ∧ x6 (q6 v) ≤ v + 2 ∧ v ≤ x6 (q6 v) + 2) ∧
  (∀ v < 32, x5 v = 8 * v + v / 4 ∧ x5 v < 256) ∧ (∀ v < 64, x6 v = 4 * v + v / 16 ∧ x6 v < 256) ∧
  x5 0 = 0 ∧ x5 31 = 255 ∧ x6 0 = 0 ∧ x6 63 = 255 ∧
  (∀ r g b : Nat, r < 256 → g < 256 → b < 256 → q565 r g b = 2048 * q5 r + 32 * q6 g + q5 b) ∧
  (∀ c < 65536, unpack565 c = ⟨x5 (c / 2048), x6 (c / 32 % 64), x5 (c % 32), 255⟩)

/-- 42_bc4_bc5.md R162 to R164 and 44_quantizer.md R241: the two BC4 palettes, their range, and the search window with
its clamp. -/
def Obligations.Bc4PaletteAndWindow : Prop :=
  (∀ e0 e1 : Nat, e0 > e1 → bc4Pal e0 e1 =
    [e0, e1, (6 * e0 + e1) / 7, (5 * e0 + 2 * e1) / 7, (4 * e0 + 3 * e1) / 7, (3 * e0 + 4 * e1) / 7,
      (2 * e0 + 5 * e1) / 7, (e0 + 6 * e1) / 7]) ∧
  (∀ e0 e1 : Nat, e0 ≤ e1 → bc4Pal e0 e1 =
    [e0, e1, (4 * e0 + e1) / 5, (3 * e0 + 2 * e1) / 5, (2 * e0 + 3 * e1) / 5, (e0 + 4 * e1) / 5, 0, 255]) ∧
  (∀ e0 e1 : Nat, e0 ≤ 255 → e1 ≤ 255 → ∀ x ∈ bc4Pal e0 e1, x ≤ 255) ∧
  (∀ mx mn r : Nat, bc4Candidates mx mn r =
    (List.range (2 * r + 1)).flatMap fun (i : Nat) => (List.range (2 * r + 1)).flatMap fun (j : Nat) =>
      let a := (min (max ((mx : Int) - r + i) 0) 255).toNat
      let b := (min (max ((mn : Int) - r + j) 0) 255).toNat
      [(a, b), (b, a)])

/-! ## SELECT, EVAL, ENCODE -/

/-- 44_quantizer.md R212: BestSel takes the least error at each pixel, the smallest selector among equals, and the total
is the sum over the pixels. -/
def Obligations.BestSelIsLeastThenSmallest : Prop :=
  ∀ (α : Type) [Inhabited α] (pal : List α) (allowed : List Nat) (e : α → Fin 16 → Nat),
    allowed ≠ [] → allowed.Pairwise (· < ·) →
      (∀ p : Fin 16, BestSelector allowed (fun a => e (pal.getD a default) p) (bestSels pal allowed e)[p]) ∧
      bestErr pal allowed e = ∑ p : Fin 16, e (pal.getD (bestSels pal allowed e)[p] default) p

/-- 44_quantizer.md R213, R214: SELECT.BC1 gives every pixel the least-error selector its mode allows, packs the block
with the endpoints as given, decodes it to OUT and writes its error, which is the error of OUT. -/
def Obligations.SelectBc1Result : Prop :=
  ∀ s : State, Ready .bc1 s →
    let c0 := (s.endp.extractLsb' 0 16).toNat
    let c1 := (s.endp.extractLsb' 16 16).toNat
    let mode := (s.cfg0.extractLsb' 4 2).toNat
    let per := (s.cfg0.extractLsb' 3 1).toNat
    let allowed := if c0 > c1 ∨ s.cfg0.getLsbD 7 = true then [0, 1, 2, 3] else [0, 1, 2]
    let err := fun a p => rgbTerm per s.cfg2 ((bc1Pal mode c0 c1).getD a default) (tilePixel s.tile p)
    Completes .selectBc1 s [.sel, .block, .out, .err] fun t =>
      (∀ p : Fin 16, BestSelector allowed (fun a => err a p) (selNibble t.sel 0 p) ∧ selNibble t.sel 1 p = 0) ∧
      bc1C0 (blockLow t.block) = c0 ∧ bc1C1 (blockLow t.block) = c1 ∧
      (∀ p : Fin 16, bc1Sel (blockLow t.block) p.val = selNibble t.sel 0 p) ∧ blockHigh t.block = 0 ∧
      t.out = outWords (bc1Decode mode (blockLow t.block)) ∧
      t.err.toNat = (∑ p : Fin 16, err (selNibble t.sel 0 p) p) ∧
      t.err.toNat = errBc1 per s.cfg2 (bc1Decode mode (blockLow t.block)) s.tile

/-- 44_quantizer.md R215, R216: SELECT.BC4 and SELECT.BC5 do the same for one and for two channels, all eight selectors
allowed. -/
def Obligations.SelectBc4Bc5Result : Prop :=
  (∀ s : State, Ready .bc4 s →
    let e0 := (s.endp.extractLsb' 0 8).toNat
    let e1 := (s.endp.extractLsb' 8 8).toNat
    let v := tileChannel s.tile (s.cfg0.extractLsb' 16 2).toNat
    Completes .selectBc4 s [.sel, .block, .out, .err] fun t =>
      (∀ p : Fin 16, BestSelector [0, 1, 2, 3, 4, 5, 6, 7] (fun a => sqDiff ((bc4Pal e0 e1).getD a 0) v[p])
        (selNibble t.sel 0 p) ∧ selNibble t.sel 1 p = 0) ∧
      bc4E0 (blockLow t.block) = e0 ∧ bc4E1 (blockLow t.block) = e1 ∧
      (∀ p : Fin 16, bc4Sel (blockLow t.block) p.val = selNibble t.sel 0 p) ∧ blockHigh t.block = 0 ∧
      t.out = outWords (bc4Decode (blockLow t.block)) ∧
      t.err.toNat = errBc4 (bc4Values (blockLow t.block)) v) ∧
  (∀ s : State, Ready .bc5 s →
    let a0 := (s.endp.extractLsb' 0 8).toNat
    let a1 := (s.endp.extractLsb' 8 8).toNat
    let b0 := (s.endp.extractLsb' 16 8).toNat
    let b1 := (s.endp.extractLsb' 24 8).toNat
    let va := tileChannel s.tile (s.cfg0.extractLsb' 16 2).toNat
    let vb := tileChannel s.tile (s.cfg0.extractLsb' 18 2).toNat
    Completes .selectBc5 s [.sel, .block, .out, .err] fun t =>
      (∀ p : Fin 16, BestSelector [0, 1, 2, 3, 4, 5, 6, 7] (fun a => sqDiff ((bc4Pal a0 a1).getD a 0) va[p])
        (selNibble t.sel 0 p)) ∧
      (∀ p : Fin 16, BestSelector [0, 1, 2, 3, 4, 5, 6, 7] (fun a => sqDiff ((bc4Pal b0 b1).getD a 0) vb[p])
        (selNibble t.sel 1 p)) ∧
      bc4E0 (blockLow t.block) = a0 ∧ bc4E1 (blockLow t.block) = a1 ∧
      bc4E0 (blockHigh t.block) = b0 ∧ bc4E1 (blockHigh t.block) = b1 ∧
      (∀ p : Fin 16, bc4Sel (blockLow t.block) p.val = selNibble t.sel 0 p ∧
        bc4Sel (blockHigh t.block) p.val = selNibble t.sel 1 p) ∧
      t.out = outWords (bc5Decode (blockLow t.block) (blockHigh t.block)) ∧
      t.err.toNat = errBc4 (bc4Values (blockLow t.block)) va + errBc4 (bc4Values (blockHigh t.block)) vb)

/-- 44_quantizer.md R210, R211, R217, R220: EVAL.BC1 and EVAL.BC7 decode the block to OUT and write the weighted sum of
squared differences. -/
def Obligations.EvalBc1Bc7Result : Prop :=
  ∀ s : State,
    let w : Nat → Int := fun c => if s.cfg0.getLsbD 3 = true then (s.cfg2.extractLsb' (8 * c) 8).toNat else 1
    let t' : Fin 16 → Nat → Int := fun p c => (s.tile[p].extractLsb' (8 * c) 8).toNat
    (Ready .bc1 s →
      let d := bc1Decode (s.cfg0.extractLsb' 4 2).toNat (blockLow s.block)
      Completes .evalBc1 s [.out, .err] fun t => t.out = outWords d ∧
        (t.err.toNat : Int) = ∑ p : Fin 16,
          (w 0 * (d[p].r - t' p 0) ^ 2 + w 1 * (d[p].g - t' p 1) ^ 2 + w 2 * (d[p].b - t' p 2) ^ 2)) ∧
    (Ready .bc7 s →
      let d := bc7Decode (blockBits s.block)
      Completes .evalBc7 s [.out, .err] fun t => t.out = outWords d ∧
        (t.err.toNat : Int) = ∑ p : Fin 16,
          (w 0 * (d[p].r - t' p 0) ^ 2 + w 1 * (d[p].g - t' p 1) ^ 2 + w 2 * (d[p].b - t' p 2) ^ 2 +
            w 3 * (d[p].a - t' p 3) ^ 2))

/-- 44_quantizer.md R210, R218, R219: EVAL.BC4 and EVAL.BC5 decode the block to OUT and write the unweighted error of the
channels CH0 and CH1. -/
def Obligations.EvalBc4Bc5Result : Prop :=
  ∀ s : State,
    let ch0 : Fin 16 → Int := fun p => (s.tile[p].extractLsb' (8 * (s.cfg0.extractLsb' 16 2).toNat) 8).toNat
    let ch1 : Fin 16 → Int := fun p => (s.tile[p].extractLsb' (8 * (s.cfg0.extractLsb' 18 2).toNat) 8).toNat
    let v := bc4Values (blockLow s.block)
    let v1 := bc4Values (blockHigh s.block)
    (Ready .bc4 s → Completes .evalBc4 s [.out, .err] fun t =>
      (∀ p : Fin 16, t.out[p] = wordOfPixel ⟨v[p], 0, 0, 255⟩) ∧
      (t.err.toNat : Int) = ∑ p : Fin 16, ((v[p] : Int) - ch0 p) ^ 2) ∧
    (Ready .bc5 s → Completes .evalBc5 s [.out, .err] fun t =>
      (∀ p : Fin 16, t.out[p] = wordOfPixel ⟨v[p], v1[p], 0, 255⟩) ∧
      (t.err.toNat : Int) = (∑ p : Fin 16, ((v[p] : Int) - ch0 p) ^ 2) + ∑ p : Fin 16, ((v1[p] : Int) - ch1 p) ^ 2)

/-- 44_quantizer.md R230, R231, R235: ENCODE.BC1 completes on every tile. BLOCK, ENDP, SEL and OUT hold one block and
its decode, ERR is the error of OUT; a solid tile gives equal endpoints and selectors 0; with BC1_USE3 = 0 no 3-colour
block with distinct endpoints is made. -/
def Obligations.EncodeBc1Result : Prop :=
  ∀ s : State, Ready .bc1 s →
    Completes .encodeBc1 s [.endp, .sel, .block, .out, .err] fun t =>
      let b := blockLow t.block
      let d := bc1Decode (s.cfg0.extractLsb' 4 2).toNat b
      let rgb := fun p : Fin 16 => s.tile[p].extractLsb' 0 24
      blockHigh t.block = 0 ∧ t.endp.toNat = bc1C0 b + 65536 * bc1C1 b ∧
      (∀ p : Fin 16, selNibble t.sel 0 p = bc1Sel b p.val ∧ selNibble t.sel 1 p = 0) ∧
      t.out = outWords d ∧ t.err.toNat = errBc1 (s.cfg0.extractLsb' 3 1).toNat s.cfg2 d s.tile ∧
      ((∀ p, rgb p = rgb 0) →
        bc1C0 b = q565 (tilePixel s.tile 0).r (tilePixel s.tile 0).g (tilePixel s.tile 0).b ∧
        bc1C1 b = bc1C0 b ∧ ∀ p : Fin 16, bc1Sel b p.val = 0) ∧
      (s.cfg0.getLsbD 6 = false → bc1C1 b ≤ bc1C0 b)

/-- 44_quantizer.md R232, R233, R234: on a tile that is not solid, ENCODE.BC1 takes the first least-error pair of the
diagonals of the colour bounding box (the main one for UBER = 0, all four above), then makes at most UBER - 1 passes
over the neighbours of the pair it has, each going to the first least neighbour when that is strictly better. So it
does at least as well as every pair considered; its selectors are the best for its endpoints. -/
def Obligations.EncodeBc1BeatsEveryCandidate : Prop :=
  ∀ s t : State, Ready .bc1 s →
    ¬ (∀ p : Fin 16, s.tile[p].extractLsb' 0 24 = s.tile[0].extractLsb' 0 24) → exec .encodeBc1 s = .next t →
    let uber := (s.cfg0.extractLsb' 8 3).toNat
    let use3 := s.cfg0.getLsbD 6
    let ch := fun (c : Nat) (p : Fin 16) => (s.tile[p].extractLsb' (8 * c) 8).toNat
    let mx := fun c => Finset.univ.sup' ⟨0, Finset.mem_univ 0⟩ (ch c)
    let mn := fun c => Finset.univ.inf' ⟨0, Finset.mem_univ 0⟩ (ch c)
    let diagonals :=
      (q565 (mx 0) (mx 1) (mx 2), q565 (mn 0) (mn 1) (mn 2)) :: if uber = 0 then [] else
        [(q565 (mx 0) (mn 1) (mx 2), q565 (mn 0) (mx 1) (mn 2)),
          (q565 (mx 0) (mx 1) (mn 2), q565 (mn 0) (mn 1) (mx 2)),
          (q565 (mx 0) (mn 1) (mn 2), q565 (mn 0) (mx 1) (mx 2))]
    let considered := diagonals.flatMap fun (a, b) =>
      if a = b then [(a, a)] else (max a b, min a b) :: if use3 then [(min a b, max a b)] else []
    let moved := fun (c : Nat) => [(11, 5), (5, 6), (0, 5)].flatMap fun ((lo, n) : Nat × Nat) =>
      let f := c / 2 ^ lo % 2 ^ n
      (if f + 1 < 2 ^ n then [c + 2 ^ lo] else []) ++ if 0 < f then [c - 2 ^ lo] else []
    let ordered := fun (four : Bool) (x y : Nat) =>
      if four then if x = y then [] else [(max x y, min x y)] else [(min x y, max x y)]
    let neighbours := fun ((c0, c1) : Nat × Nat) =>
      let four := decide (c0 > c1) || !use3
      ((moved c0).flatMap fun x => ordered four x c1) ++ (moved c1).flatMap fun y => ordered four c0 y
    let w : Nat → Nat := fun c => if s.cfg0.getLsbD 3 then (s.cfg2.extractLsb' (8 * c) 8).toNat else 1
    let sq := fun x y : Nat => ((x : Int) - y).natAbs ^ 2
    let term := fun (x : Pixel) (p : Fin 16) => w 0 * sq x.r (ch 0 p) + w 1 * sq x.g (ch 1 p) + w 2 * sq x.b (ch 2 p)
    let pal := fun c : Nat × Nat => bc1Pal (s.cfg0.extractLsb' 4 2).toNat c.1 c.2
    let allowed := fun c : Nat × Nat => if c.1 > c.2 ∨ s.cfg0.getLsbD 7 = true then [0, 1, 2, 3] else [0, 1, 2]
    let score := fun c => bestErr (pal c) (allowed c) term
    let best := (bc1C0 (blockLow t.block), bc1C1 (blockLow t.block))
    (∃ start, FirstBest score considered start ∧ PassesEnd score neighbours (uber - 1) start best) ∧
    (∀ c ∈ considered, t.err.toNat ≤ score c) ∧ t.err.toNat = score best ∧
    ∀ p : Fin 16, BestSelector (allowed best) (fun a => term ((pal best).getD a default) p) (selNibble t.sel 0 p)

/-- 44_quantizer.md R240 to R244: ENCODE.BC4 and ENCODE.BC5 complete on every tile; each channel's block is the first
least-error candidate of the window, or equal endpoints for a solid channel; ENDP, SEL, OUT and ERR are that block's. -/
def Obligations.EncodeBc4Bc5Result : Prop :=
  (∀ s : State, Ready .bc4 s →
    Completes .encodeBc4 s [.endp, .sel, .block, .out, .err] fun t =>
      let b := blockLow t.block
      let v := tileChannel s.tile (s.cfg0.extractLsb' 16 2).toNat
      Bc4Encoding (s.cfg0.extractLsb' 12 4).toNat v b ∧ blockHigh t.block = 0 ∧
      t.endp.toNat = bc4E0 b + 256 * bc4E1 b ∧
      (∀ p : Fin 16, selNibble t.sel 0 p = bc4Sel b p.val ∧ selNibble t.sel 1 p = 0) ∧
      t.out = outWords (bc4Decode b) ∧ t.err.toNat = errBc4 (bc4Values b) v) ∧
  (∀ s : State, Ready .bc5 s →
    Completes .encodeBc5 s [.endp, .sel, .block, .out, .err] fun t =>
      let a := blockLow t.block
      let b := blockHigh t.block
      let va := tileChannel s.tile (s.cfg0.extractLsb' 16 2).toNat
      let vb := tileChannel s.tile (s.cfg0.extractLsb' 18 2).toNat
      Bc4Encoding (s.cfg0.extractLsb' 12 4).toNat va a ∧ Bc4Encoding (s.cfg0.extractLsb' 12 4).toNat vb b ∧
      t.endp.toNat = bc4E0 a + 256 * bc4E1 a + 65536 * bc4E0 b + 16777216 * bc4E1 b ∧
      (∀ p : Fin 16, selNibble t.sel 0 p = bc4Sel a p.val ∧ selNibble t.sel 1 p = bc4Sel b p.val) ∧
      t.out = outWords (bc5Decode a b) ∧ t.err.toNat = errBc4 (bc4Values a) va + errBc4 (bc4Values b) vb)

/-- 44_quantizer.md R247 with R230: ENCODE.BC7 completes on every tile; BLOCK is the block of BC7_SEARCH for TILE, UBER,
PERCEPTUAL, CFG2, BC7_MODE_MASK and BC7_MAX_PART, OUT the decode of BLOCK, ERR its error, ENDP and
SEL0..SEL3 are 0; with a mode mask that is not empty and BC7_MAX_PART at least 1 the block has an admitted mode and
partition. -/
def Obligations.EncodeBc7Result : Prop :=
  ∀ s : State, Ready .bc7 s →
    Completes .encodeBc7 s [.endp, .sel, .block, .out, .err] fun t =>
      t.block = bc7Search ⟨s.tile, (s.cfg0.extractLsb' 8 3).toNat, (s.cfg0.extractLsb' 3 1).toNat, s.cfg2,
        (s.cfg1.extractLsb' 0 8).toNat, (s.cfg1.extractLsb' 8 7).toNat⟩ ∧
      t.endp = 0 ∧ (∀ k : Fin 4, t.sel[k] = 0) ∧ t.out = outWords (bc7Decode (blockBits t.block)) ∧
      t.err.toNat = errBc7 (s.cfg0.extractLsb' 3 1).toNat s.cfg2 (bc7Decode (blockBits t.block)) s.tile ∧
      (s.cfg1.extractLsb' 0 8 ≠ 0 → s.cfg1.extractLsb' 8 7 ≠ 0 →
        t.block[0] ≠ 0 ∧ ∃ m < 8, bc7ModeOf (blockBits t.block) = some m ∧ s.cfg1.getLsbD m = true ∧
          ((bc7Mode m).pb ≠ 0 → bc7PartOf m (blockBits t.block) < (s.cfg1.extractLsb' 8 7).toNat))

/-- 44_quantizer.md R246: BC7_SEARCH has a candidate set that is not empty and holds admitted blocks only, returns one of
least error with ties broken by lowest mode and then lowest partition, and the set grows with the budget. -/
def Obligations.Bc7SearchProperties : Prop :=
  (∀ a : Config.SearchArgs, (∃ m < 8, a.modeMask / 2 ^ m % 2 = 1) → 1 ≤ a.maxPart →
    let cands := bc7CandidateSet a.tile a.uber a.maxPart a.modeMask
    let mode := fun b : Vector Byte 16 => bc7ModeNumber (blockBits b)
    let part := fun b : Vector Byte 16 => bc7PartOf (mode b) (blockBits b)
    let error := fun b : Vector Byte 16 => errBc7 a.perceptual a.cfg2 (bc7Decode (blockBits b)) a.tile
    cands ≠ [] ∧
    (∀ b ∈ cands, b[0] ≠ 0 ∧ mode b < 8 ∧ a.modeMask / 2 ^ mode b % 2 = 1 ∧
      ((bc7Mode (mode b)).pb ≠ 0 → part b < a.maxPart ∧ (mode b = 0 → part b < 16))) ∧
    bc7Search a ∈ cands ∧
    ∀ b ∈ cands, error (bc7Search a) < error b ∨ (error (bc7Search a) = error b ∧
      (mode (bc7Search a) < mode b ∨ (mode (bc7Search a) = mode b ∧ part (bc7Search a) ≤ part b)))) ∧
  (∀ (tile : Vector Word 16) (u u' p p' mask : Nat), u ≤ u' → p ≤ p' →
    ∀ b ∈ bc7CandidateSet tile u p mask, b ∈ bc7CandidateSet tile u' p' mask)

/-- 44_quantizer.md R249: with the same TILE and other fields, ERR does not grow with UBER for ENCODE.BC1 and
ENCODE.BC7, with BC4_RADIUS for ENCODE.BC4 and ENCODE.BC5, or with BC7_MAX_PART for ENCODE.BC7. The field is raised by 1
where that keeps it legal: UBER is bits 10:8 and BC4_RADIUS bits 15:12 of CFG0, BC7_MAX_PART bits 14:8 of CFG1. -/
def Obligations.EncodeErrorFallsWithDepth : Prop :=
  ∀ s t t' : State,
    ((s.cfg0.extractLsb' 8 3).toNat < 6 → Ready .bc1 s → exec .encodeBc1 s = .next t →
      exec .encodeBc1 { s with cfg0 := s.cfg0 + 0x100 } = .next t' → t'.err ≤ t.err) ∧
    ((s.cfg0.extractLsb' 12 4).toNat < 15 → Ready .bc4 s → exec .encodeBc4 s = .next t →
      exec .encodeBc4 { s with cfg0 := s.cfg0 + 0x1000 } = .next t' → t'.err ≤ t.err) ∧
    ((s.cfg0.extractLsb' 12 4).toNat < 15 → Ready .bc5 s → exec .encodeBc5 s = .next t →
      exec .encodeBc5 { s with cfg0 := s.cfg0 + 0x1000 } = .next t' → t'.err ≤ t.err) ∧
    ((s.cfg0.extractLsb' 8 3).toNat < 6 → s.cfg1.extractLsb' 0 8 ≠ 0 → 1 ≤ (s.cfg1.extractLsb' 8 7).toNat →
      Ready .bc7 s → exec .encodeBc7 s = .next t →
      exec .encodeBc7 { s with cfg0 := s.cfg0 + 0x100 } = .next t' → t'.err ≤ t.err) ∧
    (s.cfg1.extractLsb' 0 8 ≠ 0 → 1 ≤ (s.cfg1.extractLsb' 8 7).toNat → (s.cfg1.extractLsb' 8 7).toNat < 64 →
      Ready .bc7 s → exec .encodeBc7 s = .next t →
      exec .encodeBc7 { s with cfg1 := s.cfg1 + 0x100 } = .next t' → t'.err ≤ t.err)

/-! ## Round trips -/

/-- 41_bc1.md R149: UNPACK.BC1 then PACK.BC1 rewrites BLOCK[0..7] with its own value and BLOCK[8..15] with 0; PACK.BC1
with nibbles in 0..3 then UNPACK.BC1 restores ENDP, SEL0 and SEL1 and writes SEL2 = SEL3 = 0. -/
def Obligations.Bc1RoundTrip : Prop :=
  ∀ s : State, Ready .bc1 s →
    (∃ t u, exec .unpackBc1 s = .next t ∧ exec .packBc1 t = .next u ∧ Succeeded u ∧
      (∀ i : Fin 8, u.block[i.val] = s.block[i.val]) ∧ ∀ i : Fin 8, u.block[8 + i.val] = 0) ∧
    ((∀ p, selNibble s.sel 0 p ≤ 3) →
      ∃ t u, exec .packBc1 s = .next t ∧ exec .unpackBc1 t = .next u ∧ Succeeded u ∧
        u.endp = s.endp ∧ u.sel[0] = s.sel[0] ∧ u.sel[1] = s.sel[1] ∧ u.sel[2] = 0 ∧ u.sel[3] = 0)

/-- 42_bc4_bc5.md R170: the same for BC4, where BLOCK[8..15] becomes 0 and the unused fields of ENDP and SEL become 0,
and for BC5, where everything is restored. -/
def Obligations.Bc4Bc5RoundTrip : Prop :=
  (∀ s : State, Ready .bc4 s →
    (∃ t u, exec .unpackBc4 s = .next t ∧ exec .packBc4 t = .next u ∧ Succeeded u ∧
      (∀ i : Fin 8, u.block[i.val] = s.block[i.val]) ∧ ∀ i : Fin 8, u.block[8 + i.val] = 0) ∧
    ((∀ p, selNibble s.sel 0 p ≤ 7) →
      ∃ t u, exec .packBc4 s = .next t ∧ exec .unpackBc4 t = .next u ∧ Succeeded u ∧
        u.endp = (0 : Half) ++ s.endp.extractLsb' 0 16 ∧ u.sel[0] = s.sel[0] ∧ u.sel[1] = s.sel[1] ∧
        u.sel[2] = 0 ∧ u.sel[3] = 0)) ∧
  (∀ s : State, Ready .bc5 s →
    (∃ t u, exec .unpackBc5 s = .next t ∧ exec .packBc5 t = .next u ∧ Succeeded u ∧ u.block = s.block) ∧
    ((∀ k p, selNibble s.sel k p ≤ 7) →
      ∃ t u, exec .packBc5 s = .next t ∧ exec .unpackBc5 t = .next u ∧ Succeeded u ∧
        u.endp = s.endp ∧ u.sel = s.sel))
end

