-- ==== Sys2Proof/Laws/Bits.lean ====
section
/-! SUPPORT. `gather` and `digit` are inverse to each other; the two halves of the block buffer are. -/

namespace Sys2Proof.Machine

theorem slice_lt (hi lo v : Nat) : slice hi lo v < 2 ^ (hi + 1 - lo) := Nat.mod_lt _ (Nat.two_pow_pos _)

theorem digit_lt (w v p : Nat) : digit w v p < 2 ^ w := Nat.mod_lt _ (Nat.two_pow_pos _)

@[simp] theorem gather_nil (w : Nat) : gather w [] = 0 := rfl

theorem gather_cons (w d : Nat) (l : List Nat) : gather w (d :: l) = d % 2 ^ w + 2 ^ w * gather w l := rfl

theorem gather_lt (w : Nat) (l : List Nat) : gather w l < 2 ^ (w * l.length) := by
  induction l with
  | nil => simp
  | cons d l ih =>
    have hd : d % 2 ^ w < 2 ^ w := Nat.mod_lt _ (Nat.two_pow_pos _)
    have hl : 2 ^ w * (gather w l + 1) ≤ 2 ^ w * 2 ^ (w * l.length) := Nat.mul_le_mul_left _ ih
    have he : 2 ^ (w * (d :: l).length) = 2 ^ w * 2 ^ (w * l.length) := by
      rw [← Nat.pow_add]; congr 1; simp [Nat.mul_add, Nat.add_comm]
    rw [gather_cons, he]; rw [Nat.mul_add] at hl; omega

theorem digit_zero (w v : Nat) : digit w v 0 = v % 2 ^ w := by simp [digit]

theorem digit_succ (w v p : Nat) : digit w v (p + 1) = digit w (v / 2 ^ w) p := by
  simp only [digit, Nat.mul_add, Nat.mul_one, Nat.pow_add, Nat.div_div_eq_div_mul, Nat.mul_comm]

/-- Field `p` of gathered fields is entry `p`. -/
theorem digit_gather (w : Nat) (l : List Nat) (p : Nat) : digit w (gather w l) p = l.getD p 0 % 2 ^ w := by
  induction l generalizing p with
  | nil => simp [digit]
  | cons d l ih =>
    have hd : d % 2 ^ w < 2 ^ w := Nat.mod_lt _ (Nat.two_pow_pos _)
    cases p with
    | zero => simp [digit_zero, gather_cons]
    | succ p =>
      have : gather w (d :: l) / 2 ^ w = gather w l := by
        rw [gather_cons, Nat.add_mul_div_left _ _ (Nat.two_pow_pos _), Nat.div_eq_of_lt hd, Nat.zero_add]
      rw [digit_succ, this, ih]; simp

/-- Gathering the first `n` fields of a number gives the number cut to those fields. -/
theorem gather_digits (w v n : Nat) : gather w ((List.range n).map (digit w v)) = v % 2 ^ (w * n) := by
  induction n generalizing v with
  | zero => simp [Nat.mod_one]
  | succ n ih =>
    have hm : (List.range n).map (digit w v ∘ Nat.succ) = (List.range n).map (digit w (v / 2 ^ w)) := by
      apply List.map_congr_left; intro p _; exact digit_succ w v p
    rw [List.range_succ_eq_map, List.map_cons, List.map_map, gather_cons, hm, ih, digit_zero, Nat.mod_mod,
      Nat.mul_add, Nat.mul_one, Nat.pow_add, Nat.mul_comm (2 ^ (w * n)), Nat.mod_mul]

theorem blockLow_lt (b : Vector Byte 16) : blockLow b < 2 ^ 64 := by
  simpa [blockLow] using gather_lt 8 ((b.toList.take 8).map BitVec.toNat)

theorem blockHigh_lt (b : Vector Byte 16) : blockHigh b < 2 ^ 64 := by
  simpa [blockHigh] using gather_lt 8 ((b.toList.drop 8).map BitVec.toNat)

theorem blockBits_lt (b : Vector Byte 16) : blockBits b < 2 ^ 128 := by
  simpa [blockBits] using gather_lt 8 (b.toList.map BitVec.toNat)

theorem digit_blockLow (b : Vector Byte 16) (i : Nat) (h : i < 8) : digit 8 (blockLow b) i = b[i].toNat := by
  have hi : i < ((b.toList.take 8).map BitVec.toNat).length := by simp; omega
  have hg : ((b.toList.take 8).map BitVec.toNat).getD i 0 = b[i].toNat := by
    rw [List.getD, List.getElem?_eq_getElem hi]; simp
  rw [blockLow, digit_gather, hg]
  exact Nat.mod_eq_of_lt b[i].isLt

theorem digit_blockHigh (b : Vector Byte 16) (i : Nat) (h : i < 8) :
    digit 8 (blockHigh b) i = b[8 + i].toNat := by
  have hi : i < ((b.toList.drop 8).map BitVec.toNat).length := by simp; omega
  have hg : ((b.toList.drop 8).map BitVec.toNat).getD i 0 = b[8 + i].toNat := by
    rw [List.getD, List.getElem?_eq_getElem hi]; simp
  rw [blockHigh, digit_gather, hg]
  exact Nat.mod_eq_of_lt b[8 + i].isLt

/-- The block buffer is determined by its two halves. -/
theorem blockOf_halves (b : Vector Byte 16) : blockOf (blockLow b) (blockHigh b) = b := by
  ext i hi : 1
  simp only [blockOf, Vector.getElem_ofFn]
  split
  · next h => rw [digit_blockLow b i h]; simp
  · next h =>
    rw [digit_blockHigh b (i - 8) (by omega)]
    have : 8 + (i - 8) = i := by omega
    simp [this]

theorem take_blockOf (lo hi : Nat) :
    ((blockOf lo hi).toList.take 8).map BitVec.toNat = (List.range 8).map (digit 8 lo) := by
  apply List.ext_getElem (by simp)
  intro n h1 h2
  have hn : n < 8 := by simpa using h2
  have hd := digit_lt 8 lo n
  simpa [blockOf, hn] using hd

theorem drop_blockOf (lo hi : Nat) :
    ((blockOf lo hi).toList.drop 8).map BitVec.toNat = (List.range 8).map (digit 8 hi) := by
  apply List.ext_getElem (by simp)
  intro n h1 h2
  have hn : n < 8 := by simpa using h2
  have hd := digit_lt 8 hi n
  have : ¬ 8 + n < 8 := by omega
  simpa [blockOf, this] using hd

/-- BLOCK[0..7] of a block made of two halves is the low half. -/
theorem blockLow_blockOf (lo hi : Nat) (h : lo < 2 ^ 64) : blockLow (blockOf lo hi) = lo := by
  rw [blockLow, take_blockOf, gather_digits]; exact Nat.mod_eq_of_lt h

/-- BLOCK[8..15] of a block made of two halves is the high half. -/
theorem blockHigh_blockOf (lo hi : Nat) (h : hi < 2 ^ 64) : blockHigh (blockOf lo hi) = hi := by
  rw [blockHigh, drop_blockOf, gather_digits]; exact Nat.mod_eq_of_lt h

end Sys2Proof.Machine
end

