-- ==== Sys2Proof/Laws/Bc7.lean ====
section
/-! SUPPORT. What the BC7 bit reader answers at each position, the anchors as lists, the mode, and the block buffer as
a sum of its bytes. -/

namespace Sys2Proof.Machine

/-! ## The block as a number -/

/-- Gathered fields are a sum of powers. -/
theorem gather_ofFn (w n : Nat) (f : Fin n → Nat) (hf : ∀ i, f i < 2 ^ w) :
    gather w (List.ofFn f) = ∑ i : Fin n, f i * 2 ^ (w * i.val) := by
  induction n with
  | zero => simp
  | succ n ih =>
    rw [List.ofFn_succ, gather_cons, Fin.sum_univ_succ, ih _ fun i => hf i.succ, Nat.mod_eq_of_lt (hf 0), Finset.mul_sum]
    congr 1
    · simp
    · refine Finset.sum_congr rfl fun i _ => ?_
      rw [Fin.val_succ, Nat.mul_add, Nat.mul_one, Nat.pow_add]; ring

/-- The 128-bit number of the block buffer. -/
theorem blockBits_eq_sum (b : Vector Byte 16) : blockBits b = ∑ i : Fin 16, b[i].toNat * 2 ^ (8 * i.val) := by
  have h : b.toList.map BitVec.toNat = List.ofFn fun i : Fin 16 => b[i].toNat := by
    apply List.ext_getElem (by simp)
    intro n h1 h2
    simp only [List.getElem_map, List.getElem_ofFn, Vector.getElem_toList]; rfl
  rw [blockBits, h, gather_ofFn _ _ _ fun i => b[i].isLt]

/-- The lowest 1 bit of a block is bit `m`. -/
theorem bc7ModeOf_eq (b m : Nat) (hm : m < 8) (h : b % 2 ^ (m + 1) = 2 ^ m) : bc7ModeOf b = some m := by
  have hb : ∀ j < m + 1, (b / 2 ^ j % 2 = 1 ↔ j = m) := by
    intro j hj
    have := Nat.testBit_mod_two_pow b (m + 1) j
    rw [h, Nat.testBit_two_pow] at this
    simp only [hj, decide_true, Bool.true_and, Nat.testBit_eq_decide_div_mod_eq, decide_eq_decide] at this
    omega
  unfold bc7ModeOf
  rw [List.find?_eq_some_iff_append]
  refine ⟨by simpa using (hb m (by omega)).2 rfl, List.range m, (List.range (7 - m)).map (m + 1 + ·), ?_, ?_⟩
  · interval_cases m <;> rfl
  · intro j hj
    have hj := List.mem_range.1 hj
    have := hb j (by omega)
    simp; omega

/-! ## Fields -/

/-- Field `k` of the bit reader stands after the fields before it. -/
theorem readFields_getD (b : Nat) (ws : List Nat) (pos k : Nat) :
    (readFields b pos ws).getD k 0 = b / 2 ^ (pos + (ws.take k).sum) % 2 ^ ws.getD k 0 := by
  induction ws generalizing pos k with
  | nil => simp [readFields, Nat.mod_one]
  | cons w ws ih =>
    cases k with
    | zero => simp [readFields]
    | succ k => simp only [readFields, List.getD_cons_succ, ih, List.take_succ_cons, List.sum_cons, Nat.add_assoc]

/-- One more pixel is one more anchor below when that pixel is an anchor. -/
theorem length_filter_lt_succ (l : List Nat) (hl : l.Nodup) (p : Nat) :
    (l.filter (· < p + 1)).length = (l.filter (· < p)).length + if p ∈ l then 1 else 0 := by
  induction l with
  | nil => rfl
  | cons a l ih =>
    obtain ⟨ha, hl⟩ := List.nodup_cons.1 hl
    have ih := ih hl
    simp only [List.filter_cons, List.mem_cons, decide_eq_true_eq]
    rcases Nat.lt_trichotomy a p with h | rfl | h
    · rw [if_pos (by omega), if_pos h, List.length_cons, List.length_cons, ih]
      simp only [show ¬ p = a by omega, false_or]; omega
    · rw [if_pos (by omega), if_neg (by omega), List.length_cons, ih]
      simp [ha]
    · rw [if_neg (by omega), if_neg (by omega), ih]
      simp only [show ¬ p = a by omega, false_or]

/-- The widths of the indices before pixel `p`, an anchor having one bit fewer (43_bc7.md R189). -/
theorem sum_index_widths (anchors : List Nat) (hl : anchors.Nodup) (n : Nat) (hn : 1 ≤ n) (p : Nat) :
    ((List.range p).map fun q => if q ∈ anchors then n - 1 else n).sum = n * p - (anchors.filter (· < p)).length := by
  have : ((List.range p).map fun q => if q ∈ anchors then n - 1 else n).sum + (anchors.filter (· < p)).length = n * p := by
    induction p with
    | zero => simp
    | succ p ih =>
      rw [List.range_succ, List.map_append, List.sum_append, length_filter_lt_succ _ hl, Nat.mul_add]
      simp only [List.map_cons, List.map_nil, List.sum_cons, List.sum_nil]
      split <;> omega
  omega

/-! ## Anchors (43_bc7.md R188) -/

theorem bc7A3b_ne (r : Nat) : bc7A3b r ≠ bc7A3a r := by unfold bc7A3b; split <;> omega

theorem bc7Anchors_pos (r : Nat) : 0 < bc7A2 r ∧ 0 < bc7A3a r ∧ 0 < bc7A3b r := by
  refine ⟨Nat.succ_pos _, Nat.succ_pos _, ?_⟩
  unfold bc7A3b; split <;> omega

/-- With one subset only pixel 0 is an anchor. -/
theorem bc7IsAnchor_one (part p : Nat) : bc7IsAnchor 1 part p = decide (p ∈ [0]) := by
  simp [bc7IsAnchor, bc7Subset, bc7AnchorOf]

/-- The anchors of two subsets. -/
theorem bc7IsAnchor_two (part p : Nat) : bc7IsAnchor 2 part p = decide (p ∈ [0, bc7A2 part]) := by
  have h := (bc7Anchors_pos part).1
  have hlt := (Config.bc7P2 part p).isLt
  simp only [bc7IsAnchor, bc7Subset, bc7P2, List.mem_cons, List.not_mem_nil, or_false]
  split
  · simp_all [bc7AnchorOf]
  · split
    · simp_all [bc7AnchorOf]
    · have : (Config.bc7P2 part p).val = 0 ∨ (Config.bc7P2 part p).val = 1 := by omega
      rcases this with e | e <;> simp_all [bc7AnchorOf]

/-- The anchors of three subsets. -/
theorem bc7IsAnchor_three (part p : Nat) :
    bc7IsAnchor 3 part p = decide (p ∈ [0, bc7A3a part, bc7A3b part]) := by
  obtain ⟨_, ha, hb⟩ := bc7Anchors_pos part
  have hne := bc7A3b_ne part
  have hlt := (Config.bc7P3 part p).isLt
  simp only [bc7IsAnchor, bc7Subset, bc7P3, List.mem_cons, List.not_mem_nil, or_false]
  split
  · next h => simp [bc7AnchorOf, h]
  · split
    · next h => simp [bc7AnchorOf, h]
    · split
      · next h => simp [bc7AnchorOf, h]
      · have : (Config.bc7P3 part p).val = 0 ∨ (Config.bc7P3 part p).val = 1 ∨ (Config.bc7P3 part p).val = 2 := by omega
        rcases this with e | e | e <;> simp_all [bc7AnchorOf]

end Sys2Proof.Machine
end

