-- ==== Sys2Proof/Laws/Choice.lean ====
section
/-! SUPPORT. What the shared choices answer: `firstLeast` (the first candidate of least score), `bestFor`, `leastOf`. -/

namespace Sys2Proof.Machine

/-- The fold from a first candidate: the answer is that candidate or a strictly better one of the list. -/
theorem foldl_leastStep {α : Type} (f : α → Nat) (l : List α) (a : α) :
    ∃ b, l.foldl (leastStep f) (some (a, f a)) = some (b, f b) ∧ (b = a ∨ b ∈ l) ∧ f b ≤ f a ∧ ∀ x ∈ l, f b ≤ f x := by
  induction l generalizing a with
  | nil => exact ⟨a, rfl, .inl rfl, le_rfl, by simp⟩
  | cons x l ih =>
    by_cases h : f x < f a
    · obtain ⟨b, hb, hm, hle, hall⟩ := ih x
      refine ⟨b, by simpa [leastStep, h] using hb, ?_, by omega, ?_⟩
      · rcases hm with rfl | hm <;> simp_all
      · intro y hy; rcases List.mem_cons.1 hy with rfl | hy
        · exact hle
        · exact hall y hy
    · obtain ⟨b, hb, hm, hle, hall⟩ := ih a
      refine ⟨b, by simpa [leastStep, h] using hb, ?_, hle, ?_⟩
      · rcases hm with rfl | hm <;> simp_all
      · intro y hy; rcases List.mem_cons.1 hy with rfl | hy
        · omega
        · exact hall y hy

/-- On a list that is not empty `firstLeast` answers a member of least score, with its score. -/
theorem firstLeast_spec {α : Type} (f : α → Nat) (l : List α) (h : l ≠ []) :
    ∃ b ∈ l, firstLeast f l = some (b, f b) ∧ ∀ x ∈ l, f b ≤ f x := by
  cases l with
  | nil => exact absurd rfl h
  | cons a l =>
    obtain ⟨b, hb, hm, hle, hall⟩ := foldl_leastStep f l a
    refine ⟨b, ?_, by simpa [firstLeast, leastStep] using hb, ?_⟩
    · rcases hm with rfl | hm <;> simp_all
    · intro x hx; rcases List.mem_cons.1 hx with rfl | hx
      · exact hle
      · exact hall x hx

@[simp] theorem firstLeast_nil {α : Type} (f : α → Nat) : firstLeast f [] = none := rfl

/-- Only an empty list has no least candidate. -/
theorem firstLeast_eq_none {α : Type} (f : α → Nat) (l : List α) (h : firstLeast f l = none) : l = [] := by
  by_contra hl
  obtain ⟨b, _, hb, _⟩ := firstLeast_spec f l hl
  simp [hb] at h

/-- An answer of `firstLeast` is a member, carries its own score and is least. -/
theorem firstLeast_some {α : Type} (f : α → Nat) (l : List α) (b : α × Nat) (h : firstLeast f l = some b) :
    b.1 ∈ l ∧ b.2 = f b.1 ∧ ∀ x ∈ l, b.2 ≤ f x := by
  have hl : l ≠ [] := by rintro rfl; simp at h
  obtain ⟨c, hc, he, hall⟩ := firstLeast_spec f l hl
  rw [he] at h; cases h
  exact ⟨hc, rfl, hall⟩

/-- Adding candidates at the end never raises the least score. -/
theorem firstLeast_append_le {α : Type} (f : α → Nat) (l l' : List α) (b b' : α × Nat)
    (h : firstLeast f l = some b) (h' : firstLeast f (l ++ l') = some b') : b'.2 ≤ b.2 := by
  obtain ⟨hm, he, _⟩ := firstLeast_some f l b h
  obtain ⟨_, _, hall⟩ := firstLeast_some f _ b' h'
  rw [he]; exact hall _ (List.mem_append_left _ hm)

/-- BestSel at one pixel: an allowed selector, its error, and no allowed selector does better. -/
theorem bestFor_spec {α : Type} [Inhabited α] (pal : List α) (allowed : List Nat) (e : α → Fin 16 → Nat) (p : Fin 16)
    (h : allowed ≠ []) :
    (bestFor pal allowed e p).1 ∈ allowed ∧
    (bestFor pal allowed e p).2 = e (entry pal (bestFor pal allowed e p).1) p ∧
    ∀ a ∈ allowed, (bestFor pal allowed e p).2 ≤ e (entry pal a) p := by
  obtain ⟨b, hb, he, hall⟩ := firstLeast_spec (fun s => e (entry pal s) p) allowed h
  simp only [bestFor, he, Option.getD_some]
  exact ⟨hb, trivial, hall⟩

theorem mem_leastOf {α : Type} (f : α → Nat) (l : List α) (a : α) :
    a ∈ leastOf f l ↔ a ∈ l ∧ ∀ b ∈ l, f a ≤ f b := by simp [leastOf]

/-- The least elements of a list that is not empty are not none. -/
theorem leastOf_ne_nil {α : Type} (f : α → Nat) (l : List α) (h : l ≠ []) : leastOf f l ≠ [] := by
  obtain ⟨b, hb, _, hall⟩ := firstLeast_spec f l h
  exact List.ne_nil_of_mem ((mem_leastOf f l b).2 ⟨hb, hall⟩)

theorem bc1Considered_ne_nil (use3 : Nat) (d : Nat × Nat) : bc1Considered use3 d ≠ [] := by
  unfold bc1Considered; split <;> simp

theorem bc4Candidates_ne_nil (mx mn r : Nat) : bc4Candidates mx mn r ≠ [] := by
  have : (windowValue mx r 0, windowValue mn r 0) ∈ bc4Candidates mx mn r := by
    simp only [bc4Candidates, List.mem_flatMap, List.mem_range]
    exact ⟨0, by omega, 0, by omega, by simp⟩
  exact List.ne_nil_of_mem this

end Sys2Proof.Machine
end

