-- ==== Sys2Proof/Laws/Operands.lean ====
section
/-! SUPPORT. The fields of registers as bit-vector extracts, and what the operand readers answer on what the operand
formers wrote. -/

namespace Sys2Proof.Machine

/-! ## Slices and extracts -/

theorem toNat_extract {n : Nat} (w : BitVec n) (lo len : Nat) :
    (w.extractLsb' lo len).toNat = w.toNat / 2 ^ lo % 2 ^ len := by
  simp [BitVec.extractLsb'_toNat, Nat.shiftRight_eq_div_pow]

theorem slice_eq_extract {n : Nat} (w : BitVec n) (hi lo : Nat) :
    slice hi lo w.toNat = (w.extractLsb' lo (hi + 1 - lo)).toNat := by rw [toNat_extract]; rfl

theorem digit_eq_extract {n : Nat} (w : BitVec n) (k p : Nat) :
    digit k w.toNat p = (w.extractLsb' (k * p) k).toNat := by rw [toNat_extract]; rfl

/-- A field of one bit is that bit. -/
theorem slice_bit {n : Nat} (w : BitVec n) (i : Nat) : slice i i w.toNat = (w.getLsbD i).toNat := by
  have h : i + 1 - i = 1 := by omega
  simp only [slice, h, BitVec.getLsbD, Nat.testBit_eq_decide_div_mod_eq]
  have := Nat.mod_two_eq_zero_or_one (w.toNat / 2 ^ i)
  rcases this with h | h <;> simp [h]

theorem cfgFormat_eq (w : Word) : cfgFormat w = (w.extractLsb' 0 3).toNat := slice_eq_extract w 2 0
theorem cfgPerceptual_eq (w : Word) : cfgPerceptual w = (w.extractLsb' 3 1).toNat := slice_eq_extract w 3 3
theorem cfgBc1Mode_eq (w : Word) : cfgBc1Mode w = (w.extractLsb' 4 2).toNat := slice_eq_extract w 5 4
theorem cfgUse3_eq (w : Word) : cfgUse3 w = (w.extractLsb' 6 1).toNat := slice_eq_extract w 6 6
theorem cfgUse3Black_eq (w : Word) : cfgUse3Black w = (w.extractLsb' 7 1).toNat := slice_eq_extract w 7 7
theorem cfgUber_eq (w : Word) : cfgUber w = (w.extractLsb' 8 3).toNat := slice_eq_extract w 10 8
theorem cfgRadius_eq (w : Word) : cfgRadius w = (w.extractLsb' 12 4).toNat := slice_eq_extract w 15 12
theorem cfgCh0_eq (w : Word) : cfgCh0 w = (w.extractLsb' 16 2).toNat := slice_eq_extract w 17 16
theorem cfgCh1_eq (w : Word) : cfgCh1 w = (w.extractLsb' 18 2).toNat := slice_eq_extract w 19 18
theorem cfgModeMask_eq (w : Word) : cfgModeMask w = (w.extractLsb' 0 8).toNat := slice_eq_extract w 7 0
theorem cfgMaxPart_eq (w : Word) : cfgMaxPart w = (w.extractLsb' 8 7).toNat := slice_eq_extract w 14 8
theorem cfgWeight_eq (w : Word) (c : Nat) : cfgWeight w c = (w.extractLsb' (8 * c) 8).toNat := digit_eq_extract w 8 c

/-! ## Pixels -/

/-- A channel of a pixel register is one of its bytes. -/
theorem channel_tilePixel (tile : Vector Word 16) (p : Fin 16) (c : Nat) (h : c < 4) :
    channel (tilePixel tile p) c = (tile[p].extractLsb' (8 * c) 8).toNat := by
  have : c = 0 ∨ c = 1 ∨ c = 2 ∨ c = 3 := by omega
  rcases this with rfl | rfl | rfl | rfl <;> exact digit_eq_extract _ 8 _

theorem channel_le (tile : Vector Word 16) (p : Fin 16) (c : Nat) : channel (tilePixel tile p) c ≤ 255 := by
  have h (k : Nat) := digit_lt 8 tile[p].toNat k
  have h0 := h 0; have h1 := h 1; have h2 := h 2; have h3 := h 3
  unfold channel tilePixel pixelOfWord
  split <;> simp only <;> omega

/-- Reading back the pixel of a pixel word. -/
theorem pixelOfWord_wordOfPixel (x : Pixel) (h : x.r ≤ 255 ∧ x.g ≤ 255 ∧ x.b ≤ 255 ∧ x.a ≤ 255) :
    pixelOfWord (wordOfPixel x) = x := by
  obtain ⟨hr, hg, hb, ha⟩ := h
  have hlt : gather 8 [x.r, x.g, x.b, x.a] < 2 ^ 32 := by simpa using gather_lt 8 [x.r, x.g, x.b, x.a]
  have hn : (wordOfPixel x).toNat = gather 8 [x.r, x.g, x.b, x.a] := by
    rw [wordOfPixel, BitVec.toNat_ofNat]; exact Nat.mod_eq_of_lt hlt
  cases x
  simp only [pixelOfWord, hn, digit_gather, Pixel.mk.injEq] at *
  refine ⟨?_, ?_, ?_, ?_⟩ <;> simp <;> omega

/-! ## Selectors -/

theorem selNibble_lt (sel : Vector Word 4) (k : Fin 2) (p : Fin 16) : selNibble sel k p < 16 := digit_lt 4 _ _

theorem toNat_gather4 (l : List Nat) (h : l.length = 8) : (BitVec.ofNat 32 (gather 4 l)).toNat = gather 4 l := by
  rw [BitVec.toNat_ofNat]; apply Nat.mod_eq_of_lt
  have := gather_lt 4 l
  rw [h] at this; simpa using this

/-- Reading back the selectors of channel 0. -/
theorem selNibble_selWords_zero (a b : Vector Nat 16) (p : Fin 16) :
    selNibble (selWords a b) 0 p = a[p] % 16 := by
  unfold selNibble selWords
  have hp : p.val / 8 = 0 ∨ p.val / 8 = 1 := by omega
  rcases hp with h | h
  · have h8 : p.val % 8 = p.val := by omega
    simp only [h, Fin.val_zero, Nat.mul_zero, Nat.add_zero, h8]
    show digit 4 (BitVec.ofNat 32 (gather 4 (a.toList.take 8))).toNat p.val = _
    rw [toNat_gather4 _ (by simp), digit_gather]
    have : p.val < 8 := by omega
    simp [List.getD, this]
  · have h8 : p.val % 8 = p.val - 8 := by omega
    simp only [h, Fin.val_zero, Nat.mul_zero, Nat.zero_add, h8]
    show digit 4 (BitVec.ofNat 32 (gather 4 (a.toList.drop 8))).toNat (p.val - 8) = _
    rw [toNat_gather4 _ (by simp), digit_gather]
    have : 8 + (p.val - 8) = p.val := by omega
    simp [List.getD, this]

/-- Reading back the selectors of channel 1. -/
theorem selNibble_selWords_one (a b : Vector Nat 16) (p : Fin 16) :
    selNibble (selWords a b) 1 p = b[p] % 16 := by
  unfold selNibble selWords
  have hp : p.val / 8 = 0 ∨ p.val / 8 = 1 := by omega
  rcases hp with h | h
  · have h8 : p.val % 8 = p.val := by omega
    simp only [h, Fin.val_one, Nat.mul_one, Nat.add_zero, h8]
    show digit 4 (BitVec.ofNat 32 (gather 4 (b.toList.take 8))).toNat p.val = _
    rw [toNat_gather4 _ (by simp), digit_gather]
    have : p.val < 8 := by omega
    simp [List.getD, this]
  · have h8 : p.val % 8 = p.val - 8 := by omega
    simp only [h, Fin.val_one, Nat.mul_one, h8]
    show digit 4 (BitVec.ofNat 32 (gather 4 (b.toList.drop 8))).toNat (p.val - 8) = _
    rw [toNat_gather4 _ (by simp), digit_gather]
    have : 8 + (p.val - 8) = p.val := by omega
    simp [List.getD, this]

@[simp] theorem selChannel_getElem (sel : Vector Word 4) (k : Fin 2) (p : Nat) (h : p < 16) :
    (selChannel sel k)[p] = selNibble sel k ⟨p, h⟩ := by simp [selChannel]

@[simp] theorem noSelectors_getElem (p : Nat) (h : p < 16) : noSelectors[p] = 0 := by simp [noSelectors]

/-! ## Sums -/

/-- `sumPixels` is the sum over the 16 pixels. -/
theorem sumPixels_eq (f : Fin 16 → Nat) : sumPixels f = ∑ p : Fin 16, f p := (Fin.sum_univ_def f).symm

theorem sumPixels_le (f : Fin 16 → Nat) (m : Nat) (h : ∀ p, f p ≤ m) : sumPixels f ≤ 16 * m := by
  rw [sumPixels_eq]
  simpa using Finset.sum_le_sum (s := Finset.univ) fun p _ => h p

theorem sumPixels_congr (f g : Fin 16 → Nat) (h : ∀ p, f p = g p) : sumPixels f = sumPixels g := by
  rw [funext h]

end Sys2Proof.Machine
end

