-- ==== Sys2Proof/Laws/State.lean ====
section
/-! SUPPORT. Every named update of the state, field by field: what the update writes and what it keeps. -/

namespace Sys2Proof.Machine

/-! ## State.setTile -/

@[simp] theorem setTile_done (t : Vector Word 16) (s : State) : (State.setTile t s).done = s.done := rfl
@[simp] theorem setTile_ctxv (t : Vector Word 16) (s : State) : (State.setTile t s).ctxv = s.ctxv := rfl
@[simp] theorem setTile_ovr (t : Vector Word 16) (s : State) : (State.setTile t s).ovr = s.ovr := rfl
@[simp] theorem setTile_result (t : Vector Word 16) (s : State) : (State.setTile t s).result = s.result := rfl
@[simp] theorem setTile_ie (t : Vector Word 16) (s : State) : (State.setTile t s).ie = s.ie := rfl
@[simp] theorem setTile_cfg0 (t : Vector Word 16) (s : State) : (State.setTile t s).cfg0 = s.cfg0 := rfl
@[simp] theorem setTile_cfg1 (t : Vector Word 16) (s : State) : (State.setTile t s).cfg1 = s.cfg1 := rfl
@[simp] theorem setTile_cfg2 (t : Vector Word 16) (s : State) : (State.setTile t s).cfg2 = s.cfg2 := rfl
@[simp] theorem setTile_tile (t : Vector Word 16) (s : State) : (State.setTile t s).tile = t := rfl
@[simp] theorem setTile_block (t : Vector Word 16) (s : State) : (State.setTile t s).block = s.block := rfl
@[simp] theorem setTile_endp (t : Vector Word 16) (s : State) : (State.setTile t s).endp = s.endp := rfl
@[simp] theorem setTile_sel (t : Vector Word 16) (s : State) : (State.setTile t s).sel = s.sel := rfl
@[simp] theorem setTile_err (t : Vector Word 16) (s : State) : (State.setTile t s).err = s.err := rfl
@[simp] theorem setTile_out (t : Vector Word 16) (s : State) : (State.setTile t s).out = s.out := rfl
@[simp] theorem setTile_latch (t : Vector Word 16) (s : State) : (State.setTile t s).latch = s.latch := rfl
@[simp] theorem setTile_host (t : Vector Word 16) (s : State) : (State.setTile t s).host = s.host := rfl
@[simp] theorem setTile_rdata (t : Vector Word 16) (s : State) : (State.setTile t s).rdata = s.rdata := rfl

/-! ## State.setBlock -/

@[simp] theorem setBlock_done (b : Vector Byte 16) (s : State) : (State.setBlock b s).done = s.done := rfl
@[simp] theorem setBlock_ctxv (b : Vector Byte 16) (s : State) : (State.setBlock b s).ctxv = s.ctxv := rfl
@[simp] theorem setBlock_ovr (b : Vector Byte 16) (s : State) : (State.setBlock b s).ovr = s.ovr := rfl
@[simp] theorem setBlock_result (b : Vector Byte 16) (s : State) : (State.setBlock b s).result = s.result := rfl
@[simp] theorem setBlock_ie (b : Vector Byte 16) (s : State) : (State.setBlock b s).ie = s.ie := rfl
@[simp] theorem setBlock_cfg0 (b : Vector Byte 16) (s : State) : (State.setBlock b s).cfg0 = s.cfg0 := rfl
@[simp] theorem setBlock_cfg1 (b : Vector Byte 16) (s : State) : (State.setBlock b s).cfg1 = s.cfg1 := rfl
@[simp] theorem setBlock_cfg2 (b : Vector Byte 16) (s : State) : (State.setBlock b s).cfg2 = s.cfg2 := rfl
@[simp] theorem setBlock_tile (b : Vector Byte 16) (s : State) : (State.setBlock b s).tile = s.tile := rfl
@[simp] theorem setBlock_block (b : Vector Byte 16) (s : State) : (State.setBlock b s).block = b := rfl
@[simp] theorem setBlock_endp (b : Vector Byte 16) (s : State) : (State.setBlock b s).endp = s.endp := rfl
@[simp] theorem setBlock_sel (b : Vector Byte 16) (s : State) : (State.setBlock b s).sel = s.sel := rfl
@[simp] theorem setBlock_err (b : Vector Byte 16) (s : State) : (State.setBlock b s).err = s.err := rfl
@[simp] theorem setBlock_out (b : Vector Byte 16) (s : State) : (State.setBlock b s).out = s.out := rfl
@[simp] theorem setBlock_latch (b : Vector Byte 16) (s : State) : (State.setBlock b s).latch = s.latch := rfl
@[simp] theorem setBlock_host (b : Vector Byte 16) (s : State) : (State.setBlock b s).host = s.host := rfl
@[simp] theorem setBlock_rdata (b : Vector Byte 16) (s : State) : (State.setBlock b s).rdata = s.rdata := rfl

/-! ## State.setEndp -/

@[simp] theorem setEndp_done (e : Word) (s : State) : (State.setEndp e s).done = s.done := rfl
@[simp] theorem setEndp_ctxv (e : Word) (s : State) : (State.setEndp e s).ctxv = s.ctxv := rfl
@[simp] theorem setEndp_ovr (e : Word) (s : State) : (State.setEndp e s).ovr = s.ovr := rfl
@[simp] theorem setEndp_result (e : Word) (s : State) : (State.setEndp e s).result = s.result := rfl
@[simp] theorem setEndp_ie (e : Word) (s : State) : (State.setEndp e s).ie = s.ie := rfl
@[simp] theorem setEndp_cfg0 (e : Word) (s : State) : (State.setEndp e s).cfg0 = s.cfg0 := rfl
@[simp] theorem setEndp_cfg1 (e : Word) (s : State) : (State.setEndp e s).cfg1 = s.cfg1 := rfl
@[simp] theorem setEndp_cfg2 (e : Word) (s : State) : (State.setEndp e s).cfg2 = s.cfg2 := rfl
@[simp] theorem setEndp_tile (e : Word) (s : State) : (State.setEndp e s).tile = s.tile := rfl
@[simp] theorem setEndp_block (e : Word) (s : State) : (State.setEndp e s).block = s.block := rfl
@[simp] theorem setEndp_endp (e : Word) (s : State) : (State.setEndp e s).endp = e := rfl
@[simp] theorem setEndp_sel (e : Word) (s : State) : (State.setEndp e s).sel = s.sel := rfl
@[simp] theorem setEndp_err (e : Word) (s : State) : (State.setEndp e s).err = s.err := rfl
@[simp] theorem setEndp_out (e : Word) (s : State) : (State.setEndp e s).out = s.out := rfl
@[simp] theorem setEndp_latch (e : Word) (s : State) : (State.setEndp e s).latch = s.latch := rfl
@[simp] theorem setEndp_host (e : Word) (s : State) : (State.setEndp e s).host = s.host := rfl
@[simp] theorem setEndp_rdata (e : Word) (s : State) : (State.setEndp e s).rdata = s.rdata := rfl

/-! ## State.setSel -/

@[simp] theorem setSel_done (v : Vector Word 4) (s : State) : (State.setSel v s).done = s.done := rfl
@[simp] theorem setSel_ctxv (v : Vector Word 4) (s : State) : (State.setSel v s).ctxv = s.ctxv := rfl
@[simp] theorem setSel_ovr (v : Vector Word 4) (s : State) : (State.setSel v s).ovr = s.ovr := rfl
@[simp] theorem setSel_result (v : Vector Word 4) (s : State) : (State.setSel v s).result = s.result := rfl
@[simp] theorem setSel_ie (v : Vector Word 4) (s : State) : (State.setSel v s).ie = s.ie := rfl
@[simp] theorem setSel_cfg0 (v : Vector Word 4) (s : State) : (State.setSel v s).cfg0 = s.cfg0 := rfl
@[simp] theorem setSel_cfg1 (v : Vector Word 4) (s : State) : (State.setSel v s).cfg1 = s.cfg1 := rfl
@[simp] theorem setSel_cfg2 (v : Vector Word 4) (s : State) : (State.setSel v s).cfg2 = s.cfg2 := rfl
@[simp] theorem setSel_tile (v : Vector Word 4) (s : State) : (State.setSel v s).tile = s.tile := rfl
@[simp] theorem setSel_block (v : Vector Word 4) (s : State) : (State.setSel v s).block = s.block := rfl
@[simp] theorem setSel_endp (v : Vector Word 4) (s : State) : (State.setSel v s).endp = s.endp := rfl
@[simp] theorem setSel_sel (v : Vector Word 4) (s : State) : (State.setSel v s).sel = v := rfl
@[simp] theorem setSel_err (v : Vector Word 4) (s : State) : (State.setSel v s).err = s.err := rfl
@[simp] theorem setSel_out (v : Vector Word 4) (s : State) : (State.setSel v s).out = s.out := rfl
@[simp] theorem setSel_latch (v : Vector Word 4) (s : State) : (State.setSel v s).latch = s.latch := rfl
@[simp] theorem setSel_host (v : Vector Word 4) (s : State) : (State.setSel v s).host = s.host := rfl
@[simp] theorem setSel_rdata (v : Vector Word 4) (s : State) : (State.setSel v s).rdata = s.rdata := rfl

/-! ## State.setErr -/

@[simp] theorem setErr_done (e : Nat) (s : State) : (State.setErr e s).done = s.done := rfl
@[simp] theorem setErr_ctxv (e : Nat) (s : State) : (State.setErr e s).ctxv = s.ctxv := rfl
@[simp] theorem setErr_ovr (e : Nat) (s : State) : (State.setErr e s).ovr = s.ovr := rfl
@[simp] theorem setErr_result (e : Nat) (s : State) : (State.setErr e s).result = s.result := rfl
@[simp] theorem setErr_ie (e : Nat) (s : State) : (State.setErr e s).ie = s.ie := rfl
@[simp] theorem setErr_cfg0 (e : Nat) (s : State) : (State.setErr e s).cfg0 = s.cfg0 := rfl
@[simp] theorem setErr_cfg1 (e : Nat) (s : State) : (State.setErr e s).cfg1 = s.cfg1 := rfl
@[simp] theorem setErr_cfg2 (e : Nat) (s : State) : (State.setErr e s).cfg2 = s.cfg2 := rfl
@[simp] theorem setErr_tile (e : Nat) (s : State) : (State.setErr e s).tile = s.tile := rfl
@[simp] theorem setErr_block (e : Nat) (s : State) : (State.setErr e s).block = s.block := rfl
@[simp] theorem setErr_endp (e : Nat) (s : State) : (State.setErr e s).endp = s.endp := rfl
@[simp] theorem setErr_sel (e : Nat) (s : State) : (State.setErr e s).sel = s.sel := rfl
@[simp] theorem setErr_err (e : Nat) (s : State) : (State.setErr e s).err = BitVec.ofNat 32 e := rfl
@[simp] theorem setErr_out (e : Nat) (s : State) : (State.setErr e s).out = s.out := rfl
@[simp] theorem setErr_latch (e : Nat) (s : State) : (State.setErr e s).latch = s.latch := rfl
@[simp] theorem setErr_host (e : Nat) (s : State) : (State.setErr e s).host = s.host := rfl
@[simp] theorem setErr_rdata (e : Nat) (s : State) : (State.setErr e s).rdata = s.rdata := rfl

/-! ## State.setOut -/

@[simp] theorem setOut_done (d : Vector Pixel 16) (s : State) : (State.setOut d s).done = s.done := rfl
@[simp] theorem setOut_ctxv (d : Vector Pixel 16) (s : State) : (State.setOut d s).ctxv = s.ctxv := rfl
@[simp] theorem setOut_ovr (d : Vector Pixel 16) (s : State) : (State.setOut d s).ovr = s.ovr := rfl
@[simp] theorem setOut_result (d : Vector Pixel 16) (s : State) : (State.setOut d s).result = s.result := rfl
@[simp] theorem setOut_ie (d : Vector Pixel 16) (s : State) : (State.setOut d s).ie = s.ie := rfl
@[simp] theorem setOut_cfg0 (d : Vector Pixel 16) (s : State) : (State.setOut d s).cfg0 = s.cfg0 := rfl
@[simp] theorem setOut_cfg1 (d : Vector Pixel 16) (s : State) : (State.setOut d s).cfg1 = s.cfg1 := rfl
@[simp] theorem setOut_cfg2 (d : Vector Pixel 16) (s : State) : (State.setOut d s).cfg2 = s.cfg2 := rfl
@[simp] theorem setOut_tile (d : Vector Pixel 16) (s : State) : (State.setOut d s).tile = s.tile := rfl
@[simp] theorem setOut_block (d : Vector Pixel 16) (s : State) : (State.setOut d s).block = s.block := rfl
@[simp] theorem setOut_endp (d : Vector Pixel 16) (s : State) : (State.setOut d s).endp = s.endp := rfl
@[simp] theorem setOut_sel (d : Vector Pixel 16) (s : State) : (State.setOut d s).sel = s.sel := rfl
@[simp] theorem setOut_err (d : Vector Pixel 16) (s : State) : (State.setOut d s).err = s.err := rfl
@[simp] theorem setOut_out (d : Vector Pixel 16) (s : State) : (State.setOut d s).out = outWords d := rfl
@[simp] theorem setOut_latch (d : Vector Pixel 16) (s : State) : (State.setOut d s).latch = s.latch := rfl
@[simp] theorem setOut_host (d : Vector Pixel 16) (s : State) : (State.setOut d s).host = s.host := rfl
@[simp] theorem setOut_rdata (d : Vector Pixel 16) (s : State) : (State.setOut d s).rdata = s.rdata := rfl

/-! ## State.setCtxv -/

@[simp] theorem setCtxv_done (b : Bool) (s : State) : (State.setCtxv b s).done = s.done := rfl
@[simp] theorem setCtxv_ctxv (b : Bool) (s : State) : (State.setCtxv b s).ctxv = b := rfl
@[simp] theorem setCtxv_ovr (b : Bool) (s : State) : (State.setCtxv b s).ovr = s.ovr := rfl
@[simp] theorem setCtxv_result (b : Bool) (s : State) : (State.setCtxv b s).result = s.result := rfl
@[simp] theorem setCtxv_ie (b : Bool) (s : State) : (State.setCtxv b s).ie = s.ie := rfl
@[simp] theorem setCtxv_cfg0 (b : Bool) (s : State) : (State.setCtxv b s).cfg0 = s.cfg0 := rfl
@[simp] theorem setCtxv_cfg1 (b : Bool) (s : State) : (State.setCtxv b s).cfg1 = s.cfg1 := rfl
@[simp] theorem setCtxv_cfg2 (b : Bool) (s : State) : (State.setCtxv b s).cfg2 = s.cfg2 := rfl
@[simp] theorem setCtxv_tile (b : Bool) (s : State) : (State.setCtxv b s).tile = s.tile := rfl
@[simp] theorem setCtxv_block (b : Bool) (s : State) : (State.setCtxv b s).block = s.block := rfl
@[simp] theorem setCtxv_endp (b : Bool) (s : State) : (State.setCtxv b s).endp = s.endp := rfl
@[simp] theorem setCtxv_sel (b : Bool) (s : State) : (State.setCtxv b s).sel = s.sel := rfl
@[simp] theorem setCtxv_err (b : Bool) (s : State) : (State.setCtxv b s).err = s.err := rfl
@[simp] theorem setCtxv_out (b : Bool) (s : State) : (State.setCtxv b s).out = s.out := rfl
@[simp] theorem setCtxv_latch (b : Bool) (s : State) : (State.setCtxv b s).latch = s.latch := rfl
@[simp] theorem setCtxv_host (b : Bool) (s : State) : (State.setCtxv b s).host = s.host := rfl
@[simp] theorem setCtxv_rdata (b : Bool) (s : State) : (State.setCtxv b s).rdata = s.rdata := rfl

/-! ## State.setCfg0 -/

@[simp] theorem setCfg0_done (v : Word) (s : State) : (State.setCfg0 v s).done = s.done := rfl
@[simp] theorem setCfg0_ctxv (v : Word) (s : State) : (State.setCfg0 v s).ctxv = s.ctxv := rfl
@[simp] theorem setCfg0_ovr (v : Word) (s : State) : (State.setCfg0 v s).ovr = s.ovr := rfl
@[simp] theorem setCfg0_result (v : Word) (s : State) : (State.setCfg0 v s).result = s.result := rfl
@[simp] theorem setCfg0_ie (v : Word) (s : State) : (State.setCfg0 v s).ie = s.ie := rfl
@[simp] theorem setCfg0_cfg0 (v : Word) (s : State) : (State.setCfg0 v s).cfg0 = v := rfl
@[simp] theorem setCfg0_cfg1 (v : Word) (s : State) : (State.setCfg0 v s).cfg1 = s.cfg1 := rfl
@[simp] theorem setCfg0_cfg2 (v : Word) (s : State) : (State.setCfg0 v s).cfg2 = s.cfg2 := rfl
@[simp] theorem setCfg0_tile (v : Word) (s : State) : (State.setCfg0 v s).tile = s.tile := rfl
@[simp] theorem setCfg0_block (v : Word) (s : State) : (State.setCfg0 v s).block = s.block := rfl
@[simp] theorem setCfg0_endp (v : Word) (s : State) : (State.setCfg0 v s).endp = s.endp := rfl
@[simp] theorem setCfg0_sel (v : Word) (s : State) : (State.setCfg0 v s).sel = s.sel := rfl
@[simp] theorem setCfg0_err (v : Word) (s : State) : (State.setCfg0 v s).err = s.err := rfl
@[simp] theorem setCfg0_out (v : Word) (s : State) : (State.setCfg0 v s).out = s.out := rfl
@[simp] theorem setCfg0_latch (v : Word) (s : State) : (State.setCfg0 v s).latch = s.latch := rfl
@[simp] theorem setCfg0_host (v : Word) (s : State) : (State.setCfg0 v s).host = s.host := rfl
@[simp] theorem setCfg0_rdata (v : Word) (s : State) : (State.setCfg0 v s).rdata = s.rdata := rfl

/-! ## State.setCfg1 -/

@[simp] theorem setCfg1_done (v : Word) (s : State) : (State.setCfg1 v s).done = s.done := rfl
@[simp] theorem setCfg1_ctxv (v : Word) (s : State) : (State.setCfg1 v s).ctxv = s.ctxv := rfl
@[simp] theorem setCfg1_ovr (v : Word) (s : State) : (State.setCfg1 v s).ovr = s.ovr := rfl
@[simp] theorem setCfg1_result (v : Word) (s : State) : (State.setCfg1 v s).result = s.result := rfl
@[simp] theorem setCfg1_ie (v : Word) (s : State) : (State.setCfg1 v s).ie = s.ie := rfl
@[simp] theorem setCfg1_cfg0 (v : Word) (s : State) : (State.setCfg1 v s).cfg0 = s.cfg0 := rfl
@[simp] theorem setCfg1_cfg1 (v : Word) (s : State) : (State.setCfg1 v s).cfg1 = v := rfl
@[simp] theorem setCfg1_cfg2 (v : Word) (s : State) : (State.setCfg1 v s).cfg2 = s.cfg2 := rfl
@[simp] theorem setCfg1_tile (v : Word) (s : State) : (State.setCfg1 v s).tile = s.tile := rfl
@[simp] theorem setCfg1_block (v : Word) (s : State) : (State.setCfg1 v s).block = s.block := rfl
@[simp] theorem setCfg1_endp (v : Word) (s : State) : (State.setCfg1 v s).endp = s.endp := rfl
@[simp] theorem setCfg1_sel (v : Word) (s : State) : (State.setCfg1 v s).sel = s.sel := rfl
@[simp] theorem setCfg1_err (v : Word) (s : State) : (State.setCfg1 v s).err = s.err := rfl
@[simp] theorem setCfg1_out (v : Word) (s : State) : (State.setCfg1 v s).out = s.out := rfl
@[simp] theorem setCfg1_latch (v : Word) (s : State) : (State.setCfg1 v s).latch = s.latch := rfl
@[simp] theorem setCfg1_host (v : Word) (s : State) : (State.setCfg1 v s).host = s.host := rfl
@[simp] theorem setCfg1_rdata (v : Word) (s : State) : (State.setCfg1 v s).rdata = s.rdata := rfl

/-! ## State.setCfg2 -/

@[simp] theorem setCfg2_done (v : Word) (s : State) : (State.setCfg2 v s).done = s.done := rfl
@[simp] theorem setCfg2_ctxv (v : Word) (s : State) : (State.setCfg2 v s).ctxv = s.ctxv := rfl
@[simp] theorem setCfg2_ovr (v : Word) (s : State) : (State.setCfg2 v s).ovr = s.ovr := rfl
@[simp] theorem setCfg2_result (v : Word) (s : State) : (State.setCfg2 v s).result = s.result := rfl
@[simp] theorem setCfg2_ie (v : Word) (s : State) : (State.setCfg2 v s).ie = s.ie := rfl
@[simp] theorem setCfg2_cfg0 (v : Word) (s : State) : (State.setCfg2 v s).cfg0 = s.cfg0 := rfl
@[simp] theorem setCfg2_cfg1 (v : Word) (s : State) : (State.setCfg2 v s).cfg1 = s.cfg1 := rfl
@[simp] theorem setCfg2_cfg2 (v : Word) (s : State) : (State.setCfg2 v s).cfg2 = v := rfl
@[simp] theorem setCfg2_tile (v : Word) (s : State) : (State.setCfg2 v s).tile = s.tile := rfl
@[simp] theorem setCfg2_block (v : Word) (s : State) : (State.setCfg2 v s).block = s.block := rfl
@[simp] theorem setCfg2_endp (v : Word) (s : State) : (State.setCfg2 v s).endp = s.endp := rfl
@[simp] theorem setCfg2_sel (v : Word) (s : State) : (State.setCfg2 v s).sel = s.sel := rfl
@[simp] theorem setCfg2_err (v : Word) (s : State) : (State.setCfg2 v s).err = s.err := rfl
@[simp] theorem setCfg2_out (v : Word) (s : State) : (State.setCfg2 v s).out = s.out := rfl
@[simp] theorem setCfg2_latch (v : Word) (s : State) : (State.setCfg2 v s).latch = s.latch := rfl
@[simp] theorem setCfg2_host (v : Word) (s : State) : (State.setCfg2 v s).host = s.host := rfl
@[simp] theorem setCfg2_rdata (v : Word) (s : State) : (State.setCfg2 v s).rdata = s.rdata := rfl

/-! ## State.setLatch -/

@[simp] theorem setLatch_done (l : Option InFlight) (s : State) : (State.setLatch l s).done = s.done := rfl
@[simp] theorem setLatch_ctxv (l : Option InFlight) (s : State) : (State.setLatch l s).ctxv = s.ctxv := rfl
@[simp] theorem setLatch_ovr (l : Option InFlight) (s : State) : (State.setLatch l s).ovr = s.ovr := rfl
@[simp] theorem setLatch_result (l : Option InFlight) (s : State) : (State.setLatch l s).result = s.result := rfl
@[simp] theorem setLatch_ie (l : Option InFlight) (s : State) : (State.setLatch l s).ie = s.ie := rfl
@[simp] theorem setLatch_cfg0 (l : Option InFlight) (s : State) : (State.setLatch l s).cfg0 = s.cfg0 := rfl
@[simp] theorem setLatch_cfg1 (l : Option InFlight) (s : State) : (State.setLatch l s).cfg1 = s.cfg1 := rfl
@[simp] theorem setLatch_cfg2 (l : Option InFlight) (s : State) : (State.setLatch l s).cfg2 = s.cfg2 := rfl
@[simp] theorem setLatch_tile (l : Option InFlight) (s : State) : (State.setLatch l s).tile = s.tile := rfl
@[simp] theorem setLatch_block (l : Option InFlight) (s : State) : (State.setLatch l s).block = s.block := rfl
@[simp] theorem setLatch_endp (l : Option InFlight) (s : State) : (State.setLatch l s).endp = s.endp := rfl
@[simp] theorem setLatch_sel (l : Option InFlight) (s : State) : (State.setLatch l s).sel = s.sel := rfl
@[simp] theorem setLatch_err (l : Option InFlight) (s : State) : (State.setLatch l s).err = s.err := rfl
@[simp] theorem setLatch_out (l : Option InFlight) (s : State) : (State.setLatch l s).out = s.out := rfl
@[simp] theorem setLatch_latch (l : Option InFlight) (s : State) : (State.setLatch l s).latch = l := rfl
@[simp] theorem setLatch_host (l : Option InFlight) (s : State) : (State.setLatch l s).host = s.host := rfl
@[simp] theorem setLatch_rdata (l : Option InFlight) (s : State) : (State.setLatch l s).rdata = s.rdata := rfl

/-! ## State.setHost -/

@[simp] theorem setHost_done (h : List HostOp) (s : State) : (State.setHost h s).done = s.done := rfl
@[simp] theorem setHost_ctxv (h : List HostOp) (s : State) : (State.setHost h s).ctxv = s.ctxv := rfl
@[simp] theorem setHost_ovr (h : List HostOp) (s : State) : (State.setHost h s).ovr = s.ovr := rfl
@[simp] theorem setHost_result (h : List HostOp) (s : State) : (State.setHost h s).result = s.result := rfl
@[simp] theorem setHost_ie (h : List HostOp) (s : State) : (State.setHost h s).ie = s.ie := rfl
@[simp] theorem setHost_cfg0 (h : List HostOp) (s : State) : (State.setHost h s).cfg0 = s.cfg0 := rfl
@[simp] theorem setHost_cfg1 (h : List HostOp) (s : State) : (State.setHost h s).cfg1 = s.cfg1 := rfl
@[simp] theorem setHost_cfg2 (h : List HostOp) (s : State) : (State.setHost h s).cfg2 = s.cfg2 := rfl
@[simp] theorem setHost_tile (h : List HostOp) (s : State) : (State.setHost h s).tile = s.tile := rfl
@[simp] theorem setHost_block (h : List HostOp) (s : State) : (State.setHost h s).block = s.block := rfl
@[simp] theorem setHost_endp (h : List HostOp) (s : State) : (State.setHost h s).endp = s.endp := rfl
@[simp] theorem setHost_sel (h : List HostOp) (s : State) : (State.setHost h s).sel = s.sel := rfl
@[simp] theorem setHost_err (h : List HostOp) (s : State) : (State.setHost h s).err = s.err := rfl
@[simp] theorem setHost_out (h : List HostOp) (s : State) : (State.setHost h s).out = s.out := rfl
@[simp] theorem setHost_latch (h : List HostOp) (s : State) : (State.setHost h s).latch = s.latch := rfl
@[simp] theorem setHost_host (h : List HostOp) (s : State) : (State.setHost h s).host = h := rfl
@[simp] theorem setHost_rdata (h : List HostOp) (s : State) : (State.setHost h s).rdata = s.rdata := rfl

/-! ## State.pushRead -/

@[simp] theorem pushRead_done (v : Word) (s : State) : (State.pushRead v s).done = s.done := rfl
@[simp] theorem pushRead_ctxv (v : Word) (s : State) : (State.pushRead v s).ctxv = s.ctxv := rfl
@[simp] theorem pushRead_ovr (v : Word) (s : State) : (State.pushRead v s).ovr = s.ovr := rfl
@[simp] theorem pushRead_result (v : Word) (s : State) : (State.pushRead v s).result = s.result := rfl
@[simp] theorem pushRead_ie (v : Word) (s : State) : (State.pushRead v s).ie = s.ie := rfl
@[simp] theorem pushRead_cfg0 (v : Word) (s : State) : (State.pushRead v s).cfg0 = s.cfg0 := rfl
@[simp] theorem pushRead_cfg1 (v : Word) (s : State) : (State.pushRead v s).cfg1 = s.cfg1 := rfl
@[simp] theorem pushRead_cfg2 (v : Word) (s : State) : (State.pushRead v s).cfg2 = s.cfg2 := rfl
@[simp] theorem pushRead_tile (v : Word) (s : State) : (State.pushRead v s).tile = s.tile := rfl
@[simp] theorem pushRead_block (v : Word) (s : State) : (State.pushRead v s).block = s.block := rfl
@[simp] theorem pushRead_endp (v : Word) (s : State) : (State.pushRead v s).endp = s.endp := rfl
@[simp] theorem pushRead_sel (v : Word) (s : State) : (State.pushRead v s).sel = s.sel := rfl
@[simp] theorem pushRead_err (v : Word) (s : State) : (State.pushRead v s).err = s.err := rfl
@[simp] theorem pushRead_out (v : Word) (s : State) : (State.pushRead v s).out = s.out := rfl
@[simp] theorem pushRead_latch (v : Word) (s : State) : (State.pushRead v s).latch = s.latch := rfl
@[simp] theorem pushRead_host (v : Word) (s : State) : (State.pushRead v s).host = s.host := rfl
@[simp] theorem pushRead_rdata (v : Word) (s : State) : (State.pushRead v s).rdata = v :: s.rdata := rfl

/-! ## dropWrite -/

@[simp] theorem dropWrite_done (s : State) : (dropWrite s).done = s.done := rfl
@[simp] theorem dropWrite_ctxv (s : State) : (dropWrite s).ctxv = s.ctxv := rfl
@[simp] theorem dropWrite_ovr (s : State) : (dropWrite s).ovr = true := rfl
@[simp] theorem dropWrite_result (s : State) : (dropWrite s).result = s.result := rfl
@[simp] theorem dropWrite_ie (s : State) : (dropWrite s).ie = s.ie := rfl
@[simp] theorem dropWrite_cfg0 (s : State) : (dropWrite s).cfg0 = s.cfg0 := rfl
@[simp] theorem dropWrite_cfg1 (s : State) : (dropWrite s).cfg1 = s.cfg1 := rfl
@[simp] theorem dropWrite_cfg2 (s : State) : (dropWrite s).cfg2 = s.cfg2 := rfl
@[simp] theorem dropWrite_tile (s : State) : (dropWrite s).tile = s.tile := rfl
@[simp] theorem dropWrite_block (s : State) : (dropWrite s).block = s.block := rfl
@[simp] theorem dropWrite_endp (s : State) : (dropWrite s).endp = s.endp := rfl
@[simp] theorem dropWrite_sel (s : State) : (dropWrite s).sel = s.sel := rfl
@[simp] theorem dropWrite_err (s : State) : (dropWrite s).err = s.err := rfl
@[simp] theorem dropWrite_out (s : State) : (dropWrite s).out = s.out := rfl
@[simp] theorem dropWrite_latch (s : State) : (dropWrite s).latch = s.latch := rfl
@[simp] theorem dropWrite_host (s : State) : (dropWrite s).host = s.host := rfl
@[simp] theorem dropWrite_rdata (s : State) : (dropWrite s).rdata = s.rdata := rfl

/-! ## ackStatus -/

@[simp] theorem ackStatus_done (v : Word) (s : State) : (ackStatus v s).done = (s.done && !v.getLsbD 1) := rfl
@[simp] theorem ackStatus_ctxv (v : Word) (s : State) : (ackStatus v s).ctxv = s.ctxv := rfl
@[simp] theorem ackStatus_ovr (v : Word) (s : State) : (ackStatus v s).ovr = (s.ovr && !v.getLsbD 3) := rfl
@[simp] theorem ackStatus_result (v : Word) (s : State) : (ackStatus v s).result = s.result := rfl
@[simp] theorem ackStatus_ie (v : Word) (s : State) : (ackStatus v s).ie = s.ie := rfl
@[simp] theorem ackStatus_cfg0 (v : Word) (s : State) : (ackStatus v s).cfg0 = s.cfg0 := rfl
@[simp] theorem ackStatus_cfg1 (v : Word) (s : State) : (ackStatus v s).cfg1 = s.cfg1 := rfl
@[simp] theorem ackStatus_cfg2 (v : Word) (s : State) : (ackStatus v s).cfg2 = s.cfg2 := rfl
@[simp] theorem ackStatus_tile (v : Word) (s : State) : (ackStatus v s).tile = s.tile := rfl
@[simp] theorem ackStatus_block (v : Word) (s : State) : (ackStatus v s).block = s.block := rfl
@[simp] theorem ackStatus_endp (v : Word) (s : State) : (ackStatus v s).endp = s.endp := rfl
@[simp] theorem ackStatus_sel (v : Word) (s : State) : (ackStatus v s).sel = s.sel := rfl
@[simp] theorem ackStatus_err (v : Word) (s : State) : (ackStatus v s).err = s.err := rfl
@[simp] theorem ackStatus_out (v : Word) (s : State) : (ackStatus v s).out = s.out := rfl
@[simp] theorem ackStatus_latch (v : Word) (s : State) : (ackStatus v s).latch = s.latch := rfl
@[simp] theorem ackStatus_host (v : Word) (s : State) : (ackStatus v s).host = s.host := rfl
@[simp] theorem ackStatus_rdata (v : Word) (s : State) : (ackStatus v s).rdata = s.rdata := rfl

/-! ## setCtrl -/

@[simp] theorem setCtrl_done (v : Word) (s : State) : (setCtrl v s).done = s.done := rfl
@[simp] theorem setCtrl_ctxv (v : Word) (s : State) : (setCtrl v s).ctxv = s.ctxv := rfl
@[simp] theorem setCtrl_ovr (v : Word) (s : State) : (setCtrl v s).ovr = s.ovr := rfl
@[simp] theorem setCtrl_result (v : Word) (s : State) : (setCtrl v s).result = s.result := rfl
@[simp] theorem setCtrl_ie (v : Word) (s : State) : (setCtrl v s).ie = v.getLsbD 0 := rfl
@[simp] theorem setCtrl_cfg0 (v : Word) (s : State) : (setCtrl v s).cfg0 = s.cfg0 := rfl
@[simp] theorem setCtrl_cfg1 (v : Word) (s : State) : (setCtrl v s).cfg1 = s.cfg1 := rfl
@[simp] theorem setCtrl_cfg2 (v : Word) (s : State) : (setCtrl v s).cfg2 = s.cfg2 := rfl
@[simp] theorem setCtrl_tile (v : Word) (s : State) : (setCtrl v s).tile = s.tile := rfl
@[simp] theorem setCtrl_block (v : Word) (s : State) : (setCtrl v s).block = s.block := rfl
@[simp] theorem setCtrl_endp (v : Word) (s : State) : (setCtrl v s).endp = s.endp := rfl
@[simp] theorem setCtrl_sel (v : Word) (s : State) : (setCtrl v s).sel = s.sel := rfl
@[simp] theorem setCtrl_err (v : Word) (s : State) : (setCtrl v s).err = s.err := rfl
@[simp] theorem setCtrl_out (v : Word) (s : State) : (setCtrl v s).out = s.out := rfl
@[simp] theorem setCtrl_latch (v : Word) (s : State) : (setCtrl v s).latch = s.latch := rfl
@[simp] theorem setCtrl_host (v : Word) (s : State) : (setCtrl v s).host = s.host := rfl
@[simp] theorem setCtrl_rdata (v : Word) (s : State) : (setCtrl v s).rdata = s.rdata := rfl

/-! ## zeroData -/

@[simp] theorem zeroData_done (s : State) : (zeroData s).done = s.done := rfl
@[simp] theorem zeroData_ctxv (s : State) : (zeroData s).ctxv = s.ctxv := rfl
@[simp] theorem zeroData_ovr (s : State) : (zeroData s).ovr = s.ovr := rfl
@[simp] theorem zeroData_result (s : State) : (zeroData s).result = s.result := rfl
@[simp] theorem zeroData_ie (s : State) : (zeroData s).ie = s.ie := rfl
@[simp] theorem zeroData_cfg0 (s : State) : (zeroData s).cfg0 = s.cfg0 := rfl
@[simp] theorem zeroData_cfg1 (s : State) : (zeroData s).cfg1 = s.cfg1 := rfl
@[simp] theorem zeroData_cfg2 (s : State) : (zeroData s).cfg2 = s.cfg2 := rfl
@[simp] theorem zeroData_tile (s : State) : (zeroData s).tile = Vector.replicate 16 0 := rfl
@[simp] theorem zeroData_block (s : State) : (zeroData s).block = Vector.replicate 16 0 := rfl
@[simp] theorem zeroData_endp (s : State) : (zeroData s).endp = 0 := rfl
@[simp] theorem zeroData_sel (s : State) : (zeroData s).sel = Vector.replicate 4 0 := rfl
@[simp] theorem zeroData_err (s : State) : (zeroData s).err = 0 := rfl
@[simp] theorem zeroData_out (s : State) : (zeroData s).out = Vector.replicate 16 0 := rfl
@[simp] theorem zeroData_latch (s : State) : (zeroData s).latch = s.latch := rfl
@[simp] theorem zeroData_host (s : State) : (zeroData s).host = s.host := rfl
@[simp] theorem zeroData_rdata (s : State) : (zeroData s).rdata = s.rdata := rfl

/-! ## issue -/

@[simp] theorem issue_done (w : Word) (s : State) : (issue w s).done = false := rfl
@[simp] theorem issue_ctxv (w : Word) (s : State) : (issue w s).ctxv = s.ctxv := rfl
@[simp] theorem issue_ovr (w : Word) (s : State) : (issue w s).ovr = s.ovr := rfl
@[simp] theorem issue_result (w : Word) (s : State) : (issue w s).result = s.result := rfl
@[simp] theorem issue_ie (w : Word) (s : State) : (issue w s).ie = s.ie := rfl
@[simp] theorem issue_cfg0 (w : Word) (s : State) : (issue w s).cfg0 = s.cfg0 := rfl
@[simp] theorem issue_cfg1 (w : Word) (s : State) : (issue w s).cfg1 = s.cfg1 := rfl
@[simp] theorem issue_cfg2 (w : Word) (s : State) : (issue w s).cfg2 = s.cfg2 := rfl
@[simp] theorem issue_tile (w : Word) (s : State) : (issue w s).tile = s.tile := rfl
@[simp] theorem issue_block (w : Word) (s : State) : (issue w s).block = s.block := rfl
@[simp] theorem issue_endp (w : Word) (s : State) : (issue w s).endp = s.endp := rfl
@[simp] theorem issue_sel (w : Word) (s : State) : (issue w s).sel = s.sel := rfl
@[simp] theorem issue_err (w : Word) (s : State) : (issue w s).err = s.err := rfl
@[simp] theorem issue_out (w : Word) (s : State) : (issue w s).out = s.out := rfl
@[simp] theorem issue_latch (w : Word) (s : State) : (issue w s).latch = some ⟨w, bcuLatency w s⟩ := rfl
@[simp] theorem issue_host (w : Word) (s : State) : (issue w s).host = s.host := rfl
@[simp] theorem issue_rdata (w : Word) (s : State) : (issue w s).rdata = s.rdata := rfl

/-! ## finish -/

@[simp] theorem finish_done (c : ResultCode) (s : State) : (finish c s).done = true := rfl
@[simp] theorem finish_ctxv (c : ResultCode) (s : State) : (finish c s).ctxv = s.ctxv := rfl
@[simp] theorem finish_ovr (c : ResultCode) (s : State) : (finish c s).ovr = s.ovr := rfl
@[simp] theorem finish_result (c : ResultCode) (s : State) : (finish c s).result = c.code := rfl
@[simp] theorem finish_ie (c : ResultCode) (s : State) : (finish c s).ie = s.ie := rfl
@[simp] theorem finish_cfg0 (c : ResultCode) (s : State) : (finish c s).cfg0 = s.cfg0 := rfl
@[simp] theorem finish_cfg1 (c : ResultCode) (s : State) : (finish c s).cfg1 = s.cfg1 := rfl
@[simp] theorem finish_cfg2 (c : ResultCode) (s : State) : (finish c s).cfg2 = s.cfg2 := rfl
@[simp] theorem finish_tile (c : ResultCode) (s : State) : (finish c s).tile = s.tile := rfl
@[simp] theorem finish_block (c : ResultCode) (s : State) : (finish c s).block = s.block := rfl
@[simp] theorem finish_endp (c : ResultCode) (s : State) : (finish c s).endp = s.endp := rfl
@[simp] theorem finish_sel (c : ResultCode) (s : State) : (finish c s).sel = s.sel := rfl
@[simp] theorem finish_err (c : ResultCode) (s : State) : (finish c s).err = s.err := rfl
@[simp] theorem finish_out (c : ResultCode) (s : State) : (finish c s).out = s.out := rfl
@[simp] theorem finish_latch (c : ResultCode) (s : State) : (finish c s).latch = none := rfl
@[simp] theorem finish_host (c : ResultCode) (s : State) : (finish c s).host = s.host := rfl
@[simp] theorem finish_rdata (c : ResultCode) (s : State) : (finish c s).rdata = s.rdata := rfl

/-! ## loadCommand -/

@[simp] theorem loadCommand_done (w : Word) (s : State) : (loadCommand w s).done = false := rfl
@[simp] theorem loadCommand_ctxv (w : Word) (s : State) : (loadCommand w s).ctxv = s.ctxv := rfl
@[simp] theorem loadCommand_ovr (w : Word) (s : State) : (loadCommand w s).ovr = s.ovr := rfl
@[simp] theorem loadCommand_result (w : Word) (s : State) : (loadCommand w s).result = s.result := rfl
@[simp] theorem loadCommand_ie (w : Word) (s : State) : (loadCommand w s).ie = s.ie := rfl
@[simp] theorem loadCommand_cfg0 (w : Word) (s : State) : (loadCommand w s).cfg0 = s.cfg0 := rfl
@[simp] theorem loadCommand_cfg1 (w : Word) (s : State) : (loadCommand w s).cfg1 = s.cfg1 := rfl
@[simp] theorem loadCommand_cfg2 (w : Word) (s : State) : (loadCommand w s).cfg2 = s.cfg2 := rfl
@[simp] theorem loadCommand_tile (w : Word) (s : State) : (loadCommand w s).tile = s.tile := rfl
@[simp] theorem loadCommand_block (w : Word) (s : State) : (loadCommand w s).block = s.block := rfl
@[simp] theorem loadCommand_endp (w : Word) (s : State) : (loadCommand w s).endp = s.endp := rfl
@[simp] theorem loadCommand_sel (w : Word) (s : State) : (loadCommand w s).sel = s.sel := rfl
@[simp] theorem loadCommand_err (w : Word) (s : State) : (loadCommand w s).err = s.err := rfl
@[simp] theorem loadCommand_out (w : Word) (s : State) : (loadCommand w s).out = s.out := rfl
@[simp] theorem loadCommand_latch (w : Word) (s : State) : (loadCommand w s).latch = some ⟨w, 1⟩ := rfl
@[simp] theorem loadCommand_host (w : Word) (s : State) : (loadCommand w s).host = [] := rfl
@[simp] theorem loadCommand_rdata (w : Word) (s : State) : (loadCommand w s).rdata = s.rdata := rfl

/-! ## hardReset -/

@[simp] theorem hardReset_done (s : State) : (hardReset s).done = State.reset.done := rfl
@[simp] theorem hardReset_ctxv (s : State) : (hardReset s).ctxv = State.reset.ctxv := rfl
@[simp] theorem hardReset_ovr (s : State) : (hardReset s).ovr = State.reset.ovr := rfl
@[simp] theorem hardReset_result (s : State) : (hardReset s).result = State.reset.result := rfl
@[simp] theorem hardReset_ie (s : State) : (hardReset s).ie = State.reset.ie := rfl
@[simp] theorem hardReset_cfg0 (s : State) : (hardReset s).cfg0 = State.reset.cfg0 := rfl
@[simp] theorem hardReset_cfg1 (s : State) : (hardReset s).cfg1 = State.reset.cfg1 := rfl
@[simp] theorem hardReset_cfg2 (s : State) : (hardReset s).cfg2 = State.reset.cfg2 := rfl
@[simp] theorem hardReset_tile (s : State) : (hardReset s).tile = State.reset.tile := rfl
@[simp] theorem hardReset_block (s : State) : (hardReset s).block = State.reset.block := rfl
@[simp] theorem hardReset_endp (s : State) : (hardReset s).endp = State.reset.endp := rfl
@[simp] theorem hardReset_sel (s : State) : (hardReset s).sel = State.reset.sel := rfl
@[simp] theorem hardReset_err (s : State) : (hardReset s).err = State.reset.err := rfl
@[simp] theorem hardReset_out (s : State) : (hardReset s).out = State.reset.out := rfl
@[simp] theorem hardReset_latch (s : State) : (hardReset s).latch = State.reset.latch := rfl
@[simp] theorem hardReset_host (s : State) : (hardReset s).host = s.host := rfl
@[simp] theorem hardReset_rdata (s : State) : (hardReset s).rdata = s.rdata := rfl

end Sys2Proof.Machine
end

