-- ==== Sys2Proof/Laws/Ops.lean ====
section
/-! SUPPORT. What each shared operation can answer: the checks, the end of a command, the window, an access. -/

namespace Sys2Proof.Machine

/-! ## Checks -/

theorem andThen_success (b : ResultCode) : ResultCode.andThen .success b = b := rfl

theorem andThen_right (a : ResultCode) : a.andThen .success = a := by cases a <;> rfl

theorem andThen_eq_success (a b : ResultCode) : a.andThen b = .success ↔ a = .success ∧ b = .success := by
  unfold ResultCode.andThen; split <;> simp_all

/-- The common checks of a data command pass exactly when the command is ready. -/
theorem dataChecks_success (f : Fmt) (s : State) : dataChecks f s = .success ↔ Ready f s := by
  unfold dataChecks Ready
  rw [cfgFormat_eq]
  by_cases h : s.ctxv = false <;> by_cases h' : (s.cfg0.extractLsb' 0 3).toNat = f.code <;> simp_all

theorem dataChecks_noContext (f : Fmt) (s : State) (h : s.ctxv = false) : dataChecks f s = .badContext := by
  simp [dataChecks, h]

theorem dataChecks_wrongFormat (f : Fmt) (s : State) (h : s.ctxv = true)
    (hf : (s.cfg0.extractLsb' 0 3).toNat ≠ f.code) : dataChecks f s = .badParameter := by
  unfold dataChecks
  rw [cfgFormat_eq, if_neg (by simp [h]), if_pos hf]

/-- The codes a command can end with (60_exceptions.md R261). -/
def Raised (c : ResultCode) : Prop :=
  c = .success ∨ c = .badParameter ∨ c = .badContext ∨ c = .initializationFailed

theorem raised_andThen (a b : ResultCode) (ha : Raised a) (hb : Raised b) : Raised (a.andThen b) := by
  unfold ResultCode.andThen; split <;> assumption

theorem raised_dataChecks (f : Fmt) (s : State) : Raised (dataChecks f s) := by
  unfold dataChecks Raised; split_ifs <;> simp

theorem raised_noContextCheck (s : State) : Raised (noContextCheck s) := by
  unfold noContextCheck Raised; split_ifs <;> simp

theorem raised_contextCheck (s : State) : Raised (contextCheck s) := by
  unfold contextCheck Raised; split_ifs <;> simp

theorem raised_validate (a b c : Word) : Raised (validate a b c) := by
  unfold validate Raised; split_ifs <;> simp

theorem raised_selectorCheck (n : Nat) (k : Fin 2) (s : State) : Raised (selectorCheck n k s) := by
  unfold selectorCheck Raised; split_ifs <;> simp

/-- The selector check of PACK passes exactly when every nibble of the channel is in range. -/
theorem selectorCheck_success (n : Nat) (k : Fin 2) (s : State) :
    selectorCheck n k s = .success ↔ ∀ p, selNibble s.sel k p ≤ n := by
  unfold selectorCheck
  have h : ((selChannel s.sel k).toList.all fun v => decide (v ≤ n)) = true ↔ ∀ p, selNibble s.sel k p ≤ n := by
    simp only [List.all_eq_true, decide_eq_true_eq, selChannel, Vector.toList_ofFn, List.mem_ofFn]
    exact ⟨fun h p => h _ ⟨p, rfl⟩, fun h v ⟨p, hp⟩ => hp ▸ h p⟩
  by_cases hs : ∀ p, selNibble s.sel k p ≤ n
  · rw [if_pos (h.2 hs)]; simp [hs]
  · rw [if_neg (fun hc => hs (h.1 hc))]; simp [hs]

/-! ## The end of a command -/

/-- With Success the effect is committed together with STATUS. -/
theorem conclude_success (s t : State) : conclude .success s t = .next (finish .success t) := rfl

/-- With another code nothing but STATUS changes. -/
theorem conclude_failure (c : ResultCode) (s t : State) (h : c ≠ .success) :
    conclude c s t = .next (finish c s) := by simp [conclude, h]

/-- Both ways a command ends. -/
theorem conclude_cases (c : ResultCode) (s t u : State) (h : conclude c s t = .next u) :
    (c = .success ∧ u = finish .success t) ∨ (c ≠ .success ∧ u = finish c s) := by
  unfold conclude at h
  split at h
  · next hc => cases h; exact .inl ⟨hc, rfl⟩
  · next hc => cases h; exact .inr ⟨hc, rfl⟩

theorem succeeded_finish (t : State) : Succeeded (finish .success t) := ⟨rfl, rfl, rfl⟩

theorem sameBut_refl (ps : List Part) (s : State) : SameBut ps s s := by simp [SameBut]

/-- STATUS.RESULT, DONE and BUSY are outside every frame. -/
theorem sameBut_finish (ps : List Part) (c : ResultCode) (s t : State) (h : SameBut ps s t) :
    SameBut ps s (finish c t) := by simpa [SameBut] using h

theorem sameBut_mono (ps qs : List Part) (s t : State) (h : SameBut ps s t) (hs : ∀ p ∈ ps, p ∈ qs) :
    SameBut qs s t := by
  obtain ⟨h1, h2, h3, h4, h5, h6, h7, h8, h9, h10, h11, h12, h13, h14⟩ := h
  exact ⟨h1, h2, h3, h4, h5, h6, h7, fun h => h8 (mt (hs _) h), fun h => h9 (mt (hs _) h),
    fun h => h10 (mt (hs _) h), fun h => h11 (mt (hs _) h), fun h => h12 (mt (hs _) h),
    fun h => h13 (mt (hs _) h), fun h => h14 (mt (hs _) h)⟩

/-! ## The window -/

@[simp] theorem regAt_regOffset (r : Reg) : regAt (regOffset r) = some r := by
  cases r with
  | tile p => revert p; decide
  | blockWord k => revert k; decide
  | sel k => revert k; decide
  | out p => revert p; decide
  | _ => rfl

theorem readOffset_of_reg (s : State) (o : Nat) (r : Reg) (h : regAt o = some r) :
    readOffset s o = readReg s r := by simp [readOffset, h]

theorem readOffset_reserved (s : State) (o : Nat) (h : regAt o = none) : readOffset s o = 0 := by
  simp [readOffset, h]

theorem writeOffset_of_reg (s : State) (o : Nat) (v : Word) (r : Reg) (h : regAt o = some r) :
    writeOffset o v s = writeReg r v s := by simp [writeOffset, h]

theorem writeOffset_reserved (s : State) (o : Nat) (v : Word) (h : regAt o = none) : writeOffset o v s = s := by
  simp [writeOffset, h]

/-- While BUSY = 1 a write outside STATUS and CTRL is dropped (20_memory.md R65). -/
theorem writeReg_busy (s : State) (r : Reg) (v : Word) (h : s.busy = true) (hr : writableWhileBusy r = false) :
    writeReg r v s = dropWrite s := by simp [writeReg, h, hr]

theorem writeReg_idle (s : State) (r : Reg) (v : Word) (h : s.busy = false) : writeReg r v s = storeReg r v s := by
  simp [writeReg, h]

theorem writeReg_status (s : State) (v : Word) : writeReg .status v s = ackStatus v s := by
  simp [writeReg, writableWhileBusy, storeReg]

theorem writeReg_ctrl (s : State) (v : Word) : writeReg .ctrl v s = setCtrl v s := by
  simp [writeReg, writableWhileBusy, storeReg]

/-- What one access can answer: a fault, or a next state by the effect of its offset. -/
theorem access_cases (w : Width) (a : BusAddr) (f : Nat → State) (t : State) (h : access w a f = .next t) :
    ∃ o, windowOffset a = some o ∧ w = .word ∧ o % 4 = 0 ∧ t = f o := by
  unfold access at h
  split at h
  · cases h
  · next o ho =>
    split at h
    · next hw => cases h; simp [acceptedAccess] at hw; exact ⟨o, ho, hw.1, hw.2, rfl⟩
    · cases h

theorem access_word (o : Nat) (f : Nat → State) (h : o < 256) (h4 : o % 4 = 0) :
    access .word (.window o) f = .next (f o) := by
  simp [access, windowOffset, offsetInWindow, acceptedAccess, h, h4]

theorem windowOffset_lt (a : BusAddr) (o : Nat) (h : windowOffset a = some o) : o < 256 := by
  cases a with
  | window n => simp [windowOffset, offsetInWindow] at h; omega
  | absolute n => simp [windowOffset, offsetInWindow] at h; omega

end Sys2Proof.Machine
end

