-- ==== Sys2Proof/Laws/Exec.lean ====
section
/-! SUPPORT. What every command can do, said once: its check, its effect, and the frame of its effect. -/

namespace Sys2Proof.Machine

/-- The checks of a command, in the order of 60_exceptions.md R262. -/
def checkOf : Instr → State → ResultCode
  | .init, s => (noContextCheck s).andThen (validate s.cfg0 s.cfg1 s.cfg2)
  | .destroy, s => contextCheck s
  | .reset, s => contextCheck s
  | .packBc1, s => (dataChecks .bc1 s).andThen (selectorCheck 3 0 s)
  | .packBc4, s => (dataChecks .bc4 s).andThen (selectorCheck 7 0 s)
  | .packBc5, s => (dataChecks .bc5 s).andThen ((selectorCheck 7 0 s).andThen (selectorCheck 7 1 s))
  | .unpackBc1, s => dataChecks .bc1 s
  | .unpackBc4, s => dataChecks .bc4 s
  | .unpackBc5, s => dataChecks .bc5 s
  | .unpackBc7, s => dataChecks .bc7 s
  | .selectBc1, s => dataChecks .bc1 s
  | .selectBc4, s => dataChecks .bc4 s
  | .selectBc5, s => dataChecks .bc5 s
  | .encodeBc1, s => dataChecks .bc1 s
  | .encodeBc4, s => dataChecks .bc4 s
  | .encodeBc5, s => dataChecks .bc5 s
  | .encodeBc7, s => dataChecks .bc7 s
  | .evalBc1, s => dataChecks .bc1 s
  | .evalBc4, s => dataChecks .bc4 s
  | .evalBc5, s => dataChecks .bc5 s
  | .evalBc7, s => dataChecks .bc7 s

/-- What ENCODE.BC1 writes for a quantizer's answer. -/
def effectEncodeBc1 (r : Encoded) (s : State) : State :=
  (writeBc1 r.e0 r.e1 r.sels r.err s).setEndp (endpOfBc1 r.e0 r.e1)

/-- What ENCODE.BC4 writes for a quantizer's answer. -/
def effectEncodeBc4 (r : Encoded) (s : State) : State :=
  (writeBc4 r.e0 r.e1 r.sels r.err s).setEndp (endpOfBc4 r.e0 r.e1)

/-- What ENCODE.BC5 writes for two quantizer answers. -/
def effectEncodeBc5 (a b : Encoded) (s : State) : State :=
  (writeBc5 a.e0 a.e1 a.sels b.e0 b.e1 b.sels (a.err + b.err) s).setEndp (endpOfBc5 a.e0 a.e1 b.e0 b.e1)

/-- The effect of a command that succeeds, before its completion. -/
def effectOf : Instr → State → State
  | .init, s => (zeroData s).setCtxv true
  | .destroy, s => (zeroData s).setCtxv false
  | .reset, s => zeroData s
  | .packBc1, s => s.setBlock (blockOf (bc1Pack (endpC0 s.endp) (endpC1 s.endp) (selChannel s.sel 0)) 0)
  | .packBc4, s => s.setBlock (blockOf (bc4Pack (endpByte s.endp 0) (endpByte s.endp 1) (selChannel s.sel 0)) 0)
  | .packBc5, s => s.setBlock (blockOf (bc4Pack (endpByte s.endp 0) (endpByte s.endp 1) (selChannel s.sel 0))
      (bc4Pack (endpByte s.endp 2) (endpByte s.endp 3) (selChannel s.sel 1)))
  | .unpackBc1, s => ((s.setOut (bc1Decode (cfgBc1Mode s.cfg0) (blockLow s.block))).setEndp
      (endpOfBc1 (bc1C0 (blockLow s.block)) (bc1C1 (blockLow s.block)))).setSel
      (selWords (bc1Sels (blockLow s.block)) noSelectors)
  | .unpackBc4, s => ((s.setOut (bc4Decode (blockLow s.block))).setEndp
      (endpOfBc4 (bc4E0 (blockLow s.block)) (bc4E1 (blockLow s.block)))).setSel
      (selWords (bc4Sels (blockLow s.block)) noSelectors)
  | .unpackBc5, s => ((s.setOut (bc5Decode (blockLow s.block) (blockHigh s.block))).setEndp
      (endpOfBc5 (bc4E0 (blockLow s.block)) (bc4E1 (blockLow s.block)) (bc4E0 (blockHigh s.block))
        (bc4E1 (blockHigh s.block)))).setSel
      (selWords (bc4Sels (blockLow s.block)) (bc4Sels (blockHigh s.block)))
  | .unpackBc7, s => s.setOut (bc7Decode (blockBits s.block))
  | .selectBc1, s => writeBc1 (endpC0 s.endp) (endpC1 s.endp)
      (sel1 s.cfg0 s.cfg2 s.tile (endpC0 s.endp) (endpC1 s.endp))
      (sel1Err s.cfg0 s.cfg2 s.tile (endpC0 s.endp) (endpC1 s.endp)) s
  | .selectBc4, s => writeBc4 (endpByte s.endp 0) (endpByte s.endp 1)
      (sel4 (tileChannel s.tile (cfgCh0 s.cfg0)) (endpByte s.endp 0) (endpByte s.endp 1))
      (sel4Err (tileChannel s.tile (cfgCh0 s.cfg0)) (endpByte s.endp 0) (endpByte s.endp 1)) s
  | .selectBc5, s => writeBc5 (endpByte s.endp 0) (endpByte s.endp 1)
      (sel4 (tileChannel s.tile (cfgCh0 s.cfg0)) (endpByte s.endp 0) (endpByte s.endp 1))
      (endpByte s.endp 2) (endpByte s.endp 3)
      (sel4 (tileChannel s.tile (cfgCh1 s.cfg0)) (endpByte s.endp 2) (endpByte s.endp 3))
      (sel4Err (tileChannel s.tile (cfgCh0 s.cfg0)) (endpByte s.endp 0) (endpByte s.endp 1) +
        sel4Err (tileChannel s.tile (cfgCh1 s.cfg0)) (endpByte s.endp 2) (endpByte s.endp 3)) s
  | .encodeBc1, s => effectEncodeBc1 (encBc1 s.cfg0 s.cfg2 s.tile) s
  | .encodeBc4, s => effectEncodeBc4 (encBc4 (cfgRadius s.cfg0) (tileChannel s.tile (cfgCh0 s.cfg0))) s
  | .encodeBc5, s => effectEncodeBc5 (encBc4 (cfgRadius s.cfg0) (tileChannel s.tile (cfgCh0 s.cfg0)))
      (encBc4 (cfgRadius s.cfg0) (tileChannel s.tile (cfgCh1 s.cfg0))) s
  | .encodeBc7, s => writeBc7 (bc7Search (searchArgs s)) s
  | .evalBc1, s => (s.setOut (bc1Decode (cfgBc1Mode s.cfg0) (blockLow s.block))).setErr
      (errBc1 (cfgPerceptual s.cfg0) s.cfg2 (bc1Decode (cfgBc1Mode s.cfg0) (blockLow s.block)) s.tile)
  | .evalBc4, s => (s.setOut (bc4Decode (blockLow s.block))).setErr
      (errBc4 (bc4Values (blockLow s.block)) (tileChannel s.tile (cfgCh0 s.cfg0)))
  | .evalBc5, s => (s.setOut (bc5Decode (blockLow s.block) (blockHigh s.block))).setErr
      (errBc4 (bc4Values (blockLow s.block)) (tileChannel s.tile (cfgCh0 s.cfg0)) +
        errBc4 (bc4Values (blockHigh s.block)) (tileChannel s.tile (cfgCh1 s.cfg0)))
  | .evalBc7, s => (s.setOut (bc7Decode (blockBits s.block))).setErr
      (errBc7 (cfgPerceptual s.cfg0) s.cfg2 (bc7Decode (blockBits s.block)) s.tile)

/-- Every command ends by `conclude` with its checks and its effect. -/
theorem exec_eq (i : Instr) (s : State) : exec i s = conclude (checkOf i s) s (effectOf i s) := by
  cases i <;> rfl

/-- The effect stays in the parts the command writes. -/
theorem effectOf_sameBut (i : Instr) (s : State) : SameBut (partsWritten i) s (effectOf i s) := by
  cases i <;> simp [SameBut, partsWritten, effectOf, effectEncodeBc1, effectEncodeBc4, effectEncodeBc5, writeBc1,
    writeBc4, writeBc5, writeBc7]

/-- The effect does not read the latch. -/
theorem effectOf_setLatch (i : Instr) (s : State) (l : Option InFlight) :
    effectOf i (s.setLatch l) = (effectOf i s).setLatch l := by
  cases i <;> rfl

/-- The effect does not read the host's script. -/
theorem effectOf_setHost (i : Instr) (s : State) (h : List HostOp) :
    effectOf i (s.setHost h) = (effectOf i s).setHost h := by
  cases i <;> rfl

theorem raised_checkOf (i : Instr) (s : State) : Raised (checkOf i s) := by
  cases i with
  | init => exact raised_andThen _ _ (raised_noContextCheck _) (raised_validate _ _ _)
  | destroy => exact raised_contextCheck _
  | reset => exact raised_contextCheck _
  | packBc1 => exact raised_andThen _ _ (raised_dataChecks _ _) (raised_selectorCheck _ _ _)
  | packBc4 => exact raised_andThen _ _ (raised_dataChecks _ _) (raised_selectorCheck _ _ _)
  | packBc5 =>
    exact raised_andThen _ _ (raised_dataChecks _ _)
      (raised_andThen _ _ (raised_selectorCheck _ _ _) (raised_selectorCheck _ _ _))
  | _ => exact raised_dataChecks _ _

/-- The checks do not read the latch. -/
theorem checkOf_setLatch (i : Instr) (s : State) (l : Option InFlight) :
    checkOf i (s.setLatch l) = checkOf i s := by cases i <;> rfl

/-- The checks do not read the host's script. -/
theorem checkOf_setHost (i : Instr) (s : State) (h : List HostOp) :
    checkOf i (s.setHost h) = checkOf i s := by cases i <;> rfl

/-- A command does not read the latch and leaves it empty: how many unit steps remain does not matter. -/
theorem exec_setLatch (i : Instr) (s : State) (l : Option InFlight) : exec i (s.setLatch l) = exec i s := by
  rw [exec_eq, exec_eq, checkOf_setLatch, effectOf_setLatch]; rfl

/-- A data command's checks begin with the common ones. -/
theorem checkOf_data (i : Instr) (s : State) (hd : i.op.isContext = false) :
    ∃ b, checkOf i s = (dataChecks i.fmt s).andThen b := by
  cases i with
  | init => simp [Instr.op, Op.isContext] at hd
  | destroy => simp [Instr.op, Op.isContext] at hd
  | reset => simp [Instr.op, Op.isContext] at hd
  | packBc1 => exact ⟨_, rfl⟩
  | packBc4 => exact ⟨_, rfl⟩
  | packBc5 => exact ⟨_, rfl⟩
  | _ => exact ⟨.success, (andThen_right _).symm⟩

/-- What an answer of a command is: all of its effect with Success, or nothing but STATUS with the code. -/
theorem exec_cases (i : Instr) (s t : State) (h : exec i s = .next t) :
    (checkOf i s = .success ∧ Succeeded t ∧ SameBut (partsWritten i) s t) ∨
    (checkOf i s ≠ .success ∧ t = finish (checkOf i s) s) := by
  rw [exec_eq] at h
  rcases conclude_cases _ _ _ _ h with ⟨hc, rfl⟩ | ⟨hc, rfl⟩
  · exact .inl ⟨hc, succeeded_finish _, sameBut_finish _ _ _ _ (effectOf_sameBut i s)⟩
  · exact .inr ⟨hc, rfl⟩

end Sys2Proof.Machine
end

