-- ==== Sys2Proof/Laws/PerInstr.lean ====
section
/-! SUPPORT. The family Shape: what the word of every command looks like, one lemma per constructor. -/

namespace Sys2Proof.Laws

/-- The command's pair is in the table of 30_encoding.md R73, and its word holds OP in bits 7:0, FMT in bits 10:8 and 0 in
bits 31:11 (30_encoding.md R70). -/
def Shape.Statement (i : Instr) : Prop :=
  i.wellFormed = true ∧ opField (encode i) = i.op.code ∧ fmtField (encode i) = i.fmt.code ∧ reservedField (encode i) = 0

theorem Shape.init : Shape.Statement .init := by unfold Shape.Statement; decide
theorem Shape.destroy : Shape.Statement .destroy := by unfold Shape.Statement; decide
theorem Shape.reset : Shape.Statement .reset := by unfold Shape.Statement; decide
theorem Shape.packBc1 : Shape.Statement .packBc1 := by unfold Shape.Statement; decide
theorem Shape.packBc4 : Shape.Statement .packBc4 := by unfold Shape.Statement; decide
theorem Shape.packBc5 : Shape.Statement .packBc5 := by unfold Shape.Statement; decide
theorem Shape.unpackBc1 : Shape.Statement .unpackBc1 := by unfold Shape.Statement; decide
theorem Shape.unpackBc4 : Shape.Statement .unpackBc4 := by unfold Shape.Statement; decide
theorem Shape.unpackBc5 : Shape.Statement .unpackBc5 := by unfold Shape.Statement; decide
theorem Shape.unpackBc7 : Shape.Statement .unpackBc7 := by unfold Shape.Statement; decide
theorem Shape.selectBc1 : Shape.Statement .selectBc1 := by unfold Shape.Statement; decide
theorem Shape.selectBc4 : Shape.Statement .selectBc4 := by unfold Shape.Statement; decide
theorem Shape.selectBc5 : Shape.Statement .selectBc5 := by unfold Shape.Statement; decide
theorem Shape.encodeBc1 : Shape.Statement .encodeBc1 := by unfold Shape.Statement; decide
theorem Shape.encodeBc4 : Shape.Statement .encodeBc4 := by unfold Shape.Statement; decide
theorem Shape.encodeBc5 : Shape.Statement .encodeBc5 := by unfold Shape.Statement; decide
theorem Shape.encodeBc7 : Shape.Statement .encodeBc7 := by unfold Shape.Statement; decide
theorem Shape.evalBc1 : Shape.Statement .evalBc1 := by unfold Shape.Statement; decide
theorem Shape.evalBc4 : Shape.Statement .evalBc4 := by unfold Shape.Statement; decide
theorem Shape.evalBc5 : Shape.Statement .evalBc5 := by unfold Shape.Statement; decide
theorem Shape.evalBc7 : Shape.Statement .evalBc7 := by unfold Shape.Statement; decide

end Sys2Proof.Laws
end

