-- ==== Sys2Proof/Laws/Search.lean ====
section
/-! SUPPORT. What the shared choices and the BC1 search answer, in the terms the statements use: the first best
candidate, the best selector, the passes of the refinement, the ends of a channel's range. -/

namespace Sys2Proof.Machine

/-- The fold from a first candidate keeps it, or goes to the first best of the rest that beats it. -/
theorem foldl_leastStep_firstBest {α : Type} (f : α → Nat) (l : List α) (a : α) :
    (l.foldl (leastStep f) (some (a, f a)) = some (a, f a) ∧ ∀ x ∈ l, f a ≤ f x) ∨
    ∃ b, l.foldl (leastStep f) (some (a, f a)) = some (b, f b) ∧ f b < f a ∧ FirstBest f l b := by
  induction l generalizing a with
  | nil => left; simp
  | cons x l ih =>
    by_cases h : f x < f a
    · right
      rcases ih x with ⟨he, hall⟩ | ⟨b, he, hlt, l₁, l₂, rfl, h1, h2⟩
      · exact ⟨x, by simpa [leastStep, h] using he, h, [], l, rfl, by simp, hall⟩
      · refine ⟨b, by simpa [leastStep, h] using he, by omega, x :: l₁, l₂, rfl, ?_, h2⟩
        intro y hy; rcases List.mem_cons.1 hy with rfl | hy
        · exact hlt
        · exact h1 y hy
    · rcases ih a with ⟨he, hall⟩ | ⟨b, he, hlt, l₁, l₂, rfl, h1, h2⟩
      · left; refine ⟨by simpa [leastStep, h] using he, ?_⟩
        intro y hy; rcases List.mem_cons.1 hy with rfl | hy
        · omega
        · exact hall y hy
      · right
        refine ⟨b, by simpa [leastStep, h] using he, hlt, x :: l₁, l₂, rfl, ?_, h2⟩
        intro y hy; rcases List.mem_cons.1 hy with rfl | hy
        · omega
        · exact h1 y hy

/-- An answer of `firstLeast` is the first best candidate. -/
theorem firstLeast_firstBest {α : Type} (f : α → Nat) (l : List α) (b : α × Nat) (h : firstLeast f l = some b) :
    b.2 = f b.1 ∧ FirstBest f l b.1 := by
  cases l with
  | nil => simp at h
  | cons a l =>
    have h' : l.foldl (leastStep f) (some (a, f a)) = some b := h
    rcases foldl_leastStep_firstBest f l a with ⟨he, hall⟩ | ⟨c, he, hlt, l₁, l₂, rfl, h1, h2⟩
    · rw [he] at h'; cases h'; exact ⟨rfl, [], l, rfl, by simp, hall⟩
    · rw [he] at h'; cases h'
      refine ⟨rfl, a :: l₁, l₂, rfl, ?_, h2⟩
      intro y hy; rcases List.mem_cons.1 hy with rfl | hy
      · exact hlt
      · exact h1 y hy

/-- BestSel at one pixel, the allowed selectors in rising order: the best selector and its error (44_quantizer.md
R212). -/
theorem bestFor_bestSelector {α : Type} [Inhabited α] (pal : List α) (allowed : List Nat) (e : α → Fin 16 → Nat) (p : Fin 16)
    (h : allowed ≠ []) (hp : allowed.Pairwise (· < ·)) :
    BestSelector allowed (fun a => e (pal.getD a default) p) (bestFor pal allowed e p).1 ∧
    (bestFor pal allowed e p).2 = e (pal.getD (bestFor pal allowed e p).1 default) p := by
  obtain ⟨b, hb, he, hall⟩ := firstLeast_spec (fun s => e (entry pal s) p) allowed h
  obtain ⟨_, l₁, l₂, hl, h1, h2⟩ := firstLeast_firstBest _ _ _ he
  simp only [bestFor, he, Option.getD_some]
  refine ⟨⟨hb, fun x hx => ⟨hall x hx, fun heq => ?_⟩⟩, rfl⟩
  dsimp only at heq h1 h2 hl
  rw [hl] at hx hp
  rcases List.mem_append.1 hx with hx | hx
  · have := h1 x hx; simp only [entry] at this; omega
  · rcases List.mem_cons.1 hx with rfl | hx
    · exact le_rfl
    · have := (List.pairwise_cons.1 (List.pairwise_append.1 hp).2.1).1 x hx; omega

/-- The refinement ends where its passes end, with the score of that pair, which is no worse than the start
(44_quantizer.md R234). -/
theorem bc1Refine_passesEnd (score : Nat × Nat → Nat) (use3 n : Nat) (a : Nat × Nat) :
    PassesEnd score (bc1Neighbours use3) n a (bc1Refine score use3 n (a, score a)).1 ∧
    (bc1Refine score use3 n (a, score a)).2 = score (bc1Refine score use3 n (a, score a)).1 ∧
    (bc1Refine score use3 n (a, score a)).2 ≤ score a := by
  induction n generalizing a with
  | zero => exact ⟨rfl, rfl, le_rfl⟩
  | succ n ih =>
    unfold bc1Refine PassesEnd
    cases hf : firstLeast score (bc1Neighbours use3 a) with
    | none =>
      have := firstLeast_eq_none _ _ hf
      simp [this]
    | some nb =>
      obtain ⟨he, hb⟩ := firstLeast_firstBest _ _ _ hf
      obtain ⟨_, _, hall⟩ := firstLeast_some _ _ _ hf
      dsimp only
      split
      · next hlt =>
        have e : nb = (nb.1, score nb.1) := by rw [← he]
        rw [e]
        obtain ⟨i1, i2, i3⟩ := ih nb.1
        exact ⟨.inl ⟨nb.1, hb, by omega, i1⟩, i2, by omega⟩
      · next hlt => exact ⟨.inr ⟨fun c hc => by have := hall c hc; omega, rfl⟩, rfl, le_rfl⟩

/-- What every neighbour keeps, the passes keep. -/
theorem passesEnd_keeps {α : Type} (P : α → Prop) (score : α → Nat) (next : α → List α)
    (hn : ∀ a, P a → ∀ c ∈ next a, P c) (n : Nat) (a b : α) (ha : P a) (h : PassesEnd score next n a b) : P b := by
  induction n generalizing a with
  | zero => cases h; exact ha
  | succ n ih =>
    rcases h with ⟨c, ⟨l₁, l₂, he, _⟩, _, h⟩ | ⟨_, rfl⟩
    · exact ih c (hn a ha c (by rw [he]; simp)) h
    · exact ha

/-- The moves of one field of a word: up unless it is at its top, then down unless it is 0. -/
theorem nudge_moves (c : Nat) (lo n : Nat) (hn : 1 ≤ n) :
    ([true, false].filterMap fun up => nudge c (lo, n) up) =
    (if c / 2 ^ lo % 2 ^ n + 1 < 2 ^ n then [c + 2 ^ lo] else []) ++ if 0 < c / 2 ^ lo % 2 ^ n then [c - 2 ^ lo] else [] := by
  have hs : slice (lo + n - 1) lo c = c / 2 ^ lo % 2 ^ n := by unfold slice; congr 2; omega
  have hp := Nat.two_pow_pos n
  have hle : c / 2 ^ lo % 2 ^ n * 2 ^ lo ≤ c :=
    le_trans (Nat.mul_le_mul_right _ (Nat.mod_le _ _)) (Nat.div_mul_le_self _ _)
  simp only [nudge, setField, hs]
  generalize c / 2 ^ lo % 2 ^ n = f at *
  have e1 : c - f * 2 ^ lo + (f + 1) * 2 ^ lo = c + 2 ^ lo := by rw [Nat.add_mul]; omega
  have e2 (h : 0 < f) : c - f * 2 ^ lo + (f - 1) * 2 ^ lo = c - 2 ^ lo := by
    obtain ⟨g, rfl⟩ : ∃ g, f = g + 1 := ⟨f - 1, by omega⟩
    simp only [Nat.add_mul, Nat.add_sub_cancel] at *; omega
  by_cases h1 : f + 1 < 2 ^ n <;> by_cases h2 : 0 < f
  · simp [h1, h2, e1, e2 h2, show ¬ (2 ^ n - 1 < f + 1) by omega, show ¬ f = 0 by omega]
  · obtain rfl : f = 0 := by omega
    simp [show ¬ (2 ^ n - 1 < 1) by omega, h1]
  · simp [h1, h2, e2 h2, show (2 ^ n - 1 < f + 1) by omega, show ¬ f = 0 by omega]
  · obtain rfl : f = 0 := by omega
    simp [show (2 ^ n - 1 < 1) by omega, h1]

/-- The least of the channel values. -/
theorem minOf_eq (f : Fin 16 → Nat) (hf : ∀ p, f p ≤ 255) :
    minOf (Vector.ofFn f) = Finset.univ.inf' ⟨0, Finset.mem_univ 0⟩ f := by
  have key : ∀ (l : List Nat) (a : Nat),
      (∀ x ∈ l, l.foldl min a ≤ x) ∧ l.foldl min a ≤ a ∧ (l.foldl min a = a ∨ l.foldl min a ∈ l) := by
    intro l
    induction l with
    | nil => simp
    | cons y l ih =>
      intro a
      obtain ⟨h1, h2, h3⟩ := ih (min a y)
      simp only [List.foldl_cons, List.mem_cons]
      refine ⟨?_, by omega, ?_⟩
      · rintro x (rfl | hx)
        · omega
        · exact h1 x hx
      · rcases h3 with h3 | h3
        · rcases min_choice a y with h | h <;> omega
        · exact .inr (.inr h3)
  obtain ⟨h1, h2, h3⟩ := key (Vector.ofFn f).toList 255
  have hm : ∀ p, f p ∈ (Vector.ofFn f).toList := by intro p; simp
  apply le_antisymm
  · apply Finset.le_inf'; intro p _; exact h1 _ (hm p)
  · unfold minOf
    rcases h3 with h3 | h3
    · rw [h3]; exact le_trans (Finset.inf'_le _ (Finset.mem_univ 0)) (hf 0)
    · rw [Vector.toList_ofFn] at h3 ⊢
      obtain ⟨p, hp⟩ := List.mem_ofFn.1 h3
      rw [← hp]; exact Finset.inf'_le _ (Finset.mem_univ p)

/-- The greatest of the channel values. -/
theorem maxOf_eq (f : Fin 16 → Nat) : maxOf (Vector.ofFn f) = Finset.univ.sup' ⟨0, Finset.mem_univ 0⟩ f := by
  have key : ∀ (l : List Nat) (a : Nat),
      (∀ x ∈ l, x ≤ l.foldl max a) ∧ a ≤ l.foldl max a ∧ (l.foldl max a = a ∨ l.foldl max a ∈ l) := by
    intro l
    induction l with
    | nil => simp
    | cons y l ih =>
      intro a
      obtain ⟨h1, h2, h3⟩ := ih (max a y)
      simp only [List.foldl_cons, List.mem_cons]
      refine ⟨?_, by omega, ?_⟩
      · rintro x (rfl | hx)
        · omega
        · exact h1 x hx
      · rcases h3 with h3 | h3
        · rcases max_choice a y with h | h <;> omega
        · exact .inr (.inr h3)
  obtain ⟨h1, h2, h3⟩ := key (Vector.ofFn f).toList 0
  have hm : ∀ p, f p ∈ (Vector.ofFn f).toList := by intro p; simp
  apply le_antisymm
  · unfold maxOf
    rcases h3 with h3 | h3
    · rw [h3]; exact Nat.zero_le _
    · rw [Vector.toList_ofFn] at h3 ⊢
      obtain ⟨p, hp⟩ := List.mem_ofFn.1 h3
      rw [← hp]; exact Finset.le_sup' _ (Finset.mem_univ p)
  · apply Finset.sup'_le; intro p _; exact h1 _ (hm p)

end Sys2Proof.Machine
end

