-- ==== Sys2Proof/Laws/Step.lean ====
section
/-! SUPPORT. What the command in flight, one unit step, one write and a run of steps can answer. -/

namespace Sys2Proof.Machine

/-! ## A run of steps -/

@[simp] theorem run_zero (s : State) : Host.Core.run Sys2Proof.core 0 s = .next s := rfl

/-- A run whose first step answers a next state goes on from it. -/
theorem run_succ (k : Nat) (s s' : State) (h : step s = .next s') :
    Host.Core.run Sys2Proof.core (k + 1) s = Host.Core.run Sys2Proof.core k s' := by
  have h' : Sys2Proof.core.step s = .next s' := h
  have hr := Host.Core.run.eq_2 Sys2Proof.core s k
  rw [h'] at hr
  exact hr

/-- A run of several steps that answers a next state begins with a step that does. -/
theorem run_succ_cases (k : Nat) (s t : State) (h : Host.Core.run Sys2Proof.core (k + 1) s = .next t) :
    ∃ s', step s = .next s' ∧ Host.Core.run Sys2Proof.core k s' = .next t := by
  cases hs : step s with
  | next s' => exact ⟨s', rfl, by rw [← run_succ k s s' hs]; exact h⟩
  | fault r =>
    have h' : Sys2Proof.core.step s = .fault r := hs
    have hr := Host.Core.run.eq_2 Sys2Proof.core s k
    rw [h'] at hr
    cases h.symm.trans hr
  | refused r =>
    have h' : Sys2Proof.core.step s = .refused r := hs
    have hr := Host.Core.run.eq_2 Sys2Proof.core s k
    rw [h'] at hr
    cases h.symm.trans hr

/-! ## The command in flight -/

/-- Every command word answers: its command's next state, or the failure of an illegal word. -/
theorem runWord_cases (w : Word) (s t : State) (h : runWord w s = .next t) :
    (∃ i, decodeWord w = .ok i ∧ exec i s = .next t) ∨ t = finish .badParameter s := by
  unfold runWord at h
  split at h
  · next i hi => exact .inl ⟨i, hi, h⟩
  · cases h; exact .inr rfl

theorem exec_answers (i : Instr) (s : State) : ∃ t, exec i s = .next t := by
  rw [exec_eq]; exact ⟨_, rfl⟩

theorem runWord_answers (w : Word) (s : State) : ∃ t, runWord w s = .next t := by
  unfold runWord
  split
  · exact exec_answers _ _
  · exact ⟨_, rfl⟩

/-- What a completion leaves alone, whatever the word: CTRL, CFG0..CFG2, OVR and the host's side. The latch is empty and
DONE is set. -/
theorem runWord_frame (w : Word) (s t : State) (h : runWord w s = .next t) :
    t.latch = none ∧ t.done = true ∧ t.ovr = s.ovr ∧ t.ie = s.ie ∧ t.cfg0 = s.cfg0 ∧ t.cfg1 = s.cfg1 ∧
    t.cfg2 = s.cfg2 ∧ t.host = s.host ∧ t.rdata = s.rdata := by
  rcases runWord_cases w s t h with ⟨i, _, hi⟩ | rfl
  · rcases exec_cases i s t hi with ⟨_, ⟨_, h2, h3⟩, hb⟩ | ⟨_, rfl⟩
    · obtain ⟨b1, b2, b3, b4, b5, b6, b7, _⟩ := hb
      exact ⟨by simpa [State.busy] using h3, h2, b1, b2, b3, b4, b5, b6, b7⟩
    · exact ⟨rfl, rfl, rfl, rfl, rfl, rfl, rfl, rfl, rfl⟩
  · exact ⟨rfl, rfl, rfl, rfl, rfl, rfl, rfl, rfl, rfl⟩

/-- How many unit steps remain does not matter to a completion. -/
theorem runWord_setLatch (w : Word) (s : State) (l : Option InFlight) : runWord w (s.setLatch l) = runWord w s := by
  unfold runWord
  split
  · exact exec_setLatch _ _ _
  · rfl

/-- A completion does not read the host's script. -/
theorem runWord_setHost (w : Word) (s t : State) (h : List HostOp) (ht : runWord w s = .next t) :
    runWord w (s.setHost h) = .next (t.setHost h) := by
  unfold runWord at *
  split at ht
  · next i hi =>
    rw [exec_eq] at ht ⊢
    rw [checkOf_setHost, effectOf_setHost]
    rcases conclude_cases _ _ _ _ ht with ⟨hc, rfl⟩ | ⟨hc, rfl⟩
    · rw [hc]; rfl
    · rw [conclude_failure _ _ _ hc]; rfl
  · cases ht; rfl

/-! ## One unit step and one write -/

/-- What one unit step can do: nothing, one step less remaining, or the completion. -/
theorem unitStep_cases (s t : State) (h : unitStep s = .next t) :
    (s.latch = none ∧ t = s) ∨
    ∃ f, s.latch = some f ∧
      ((f.remaining ≤ 1 ∧ runWord f.word s = .next t) ∨
        (1 < f.remaining ∧ t = s.setLatch (some ⟨f.word, f.remaining - 1⟩))) := by
  unfold unitStep at h
  split at h
  · next hl => cases h; exact .inl ⟨hl, rfl⟩
  · next f hl =>
    refine .inr ⟨f, hl, ?_⟩
    split at h
    · next hr => exact .inl ⟨hr, h⟩
    · next hr => cases h; exact .inr ⟨by omega, rfl⟩

/-- What WAIT can do: with BUSY = 0 a read of STATUS, else the completion with WAIT still in front. -/
theorem waitStep_cases (rest : List HostOp) (s t : State) (h : waitStep rest s = .next t) :
    (s.latch = none ∧ t = (s.setHost rest).pushRead (readReg s .status)) ∨
    ∃ f, s.latch = some f ∧ runWord f.word s = .next t := by
  unfold waitStep at h
  split at h
  · next hl => cases h; exact .inl ⟨hl, rfl⟩
  · next f hl => exact .inr ⟨f, hl, h⟩

/-- What a write to the window can do: nothing, a drop, or the store of its register. -/
theorem writeOffset_cases (o : Nat) (v : Word) (s : State) :
    (regAt o = none ∧ writeOffset o v s = s) ∨
    ∃ r, regAt o = some r ∧
      ((s.busy = true ∧ writableWhileBusy r = false ∧ writeOffset o v s = dropWrite s) ∨
        ((s.busy = false ∨ writableWhileBusy r = true) ∧ writeOffset o v s = storeReg r v s)) := by
  cases hr : regAt o with
  | none => exact .inl ⟨rfl, writeOffset_reserved s o v hr⟩
  | some r =>
    refine .inr ⟨r, rfl, ?_⟩
    rw [writeOffset_of_reg s o v r hr]
    unfold writeReg
    cases hb : s.busy <;> cases hw : writableWhileBusy r <;> simp

/-- A write never touches the host's side. -/
theorem writeOffset_frame (o : Nat) (v : Word) (s : State) :
    (writeOffset o v s).host = s.host ∧ (writeOffset o v s).rdata = s.rdata := by
  rcases writeOffset_cases o v s with ⟨_, h⟩ | ⟨r, _, ⟨_, _, h⟩ | ⟨_, h⟩⟩ <;> rw [h]
  · exact ⟨rfl, rfl⟩
  · exact ⟨rfl, rfl⟩
  · cases r <;> simp only [storeReg] <;> (try split) <;> first | exact ⟨rfl, rfl⟩ | trivial

/-- What one step can do, by the event in front of the script. -/
theorem step_cases (s t : State) (h : step s = .next t) :
    (s.host = [] ∧ unitStep s = .next t) ∨
    ∃ e rest, s.host = e :: rest ∧
      ((∃ a o, e = .read .word a ∧ windowOffset a = some o ∧ o % 4 = 0 ∧
          t = (s.setHost rest).pushRead (readOffset s o)) ∨
        (∃ a o v, e = .write .word a v ∧ windowOffset a = some o ∧ o % 4 = 0 ∧
          t = writeOffset o v (s.setHost rest)) ∨
        (e = .tick ∧ unitStep (s.setHost rest) = .next t) ∨
        (e = .wait ∧ waitStep rest s = .next t) ∨
        (e = .hardReset ∧ t = hardReset (s.setHost rest))) := by
  unfold step at h
  split at h
  · next hh => exact .inl ⟨hh, h⟩
  · next e rest hh =>
    refine .inr ⟨e, rest, hh, ?_⟩
    cases e with
    | read w a =>
      obtain ⟨o, ho, rfl, h4, rfl⟩ := access_cases _ _ _ _ h
      exact .inl ⟨a, o, rfl, ho, h4, rfl⟩
    | write w a v =>
      obtain ⟨o, ho, rfl, h4, rfl⟩ := access_cases _ _ _ _ h
      exact .inr (.inl ⟨a, o, v, rfl, ho, h4, rfl⟩)
    | tick => exact .inr (.inr (.inl ⟨rfl, h⟩))
    | wait => exact .inr (.inr (.inr (.inl ⟨rfl, h⟩)))
    | hardReset => cases h; exact .inr (.inr (.inr (.inr ⟨rfl, rfl⟩)))

/-- STATUS as a number. -/
theorem statusWord_toNat (s : State) : s.statusWord.toNat =
    s.busy.toNat + 2 * s.done.toNat + 4 * s.ctxv.toNat + 8 * s.ovr.toNat + 256 * s.result.toNat := by
  have hb : ∀ b : Bool, b.toNat ≤ 1 := by decide
  have h1 := hb s.busy
  have h2 := hb s.done
  have h3 := hb s.ctxv
  have h4 := hb s.ovr
  have h5 := s.result.isLt
  rw [State.statusWord, BitVec.toNat_ofNat]; omega

end Sys2Proof.Machine
end

