-- ==== Sys2Proof/Tests/Slice0.lean ====
section
/-! SUPPORT. Tests: the checks refuse what is ill formed, the words of 30_encoding.md R73 decode, one step per command
with the values of 95_test_vectors.md, and for each statement with hypotheses a state that meets them. -/

namespace Sys2Proof.Tests

open Sys2Proof Sys2Proof.Machine

-- One theorem at a time: the kernel checks of these tests are many and would each hold a thread.
set_option Elab.async false

/-! ## Helpers -/

/-- A context with configuration word CFG0, everything else as after reset. -/
def session (cfg0 : Word) : State := { State.reset with ctxv := true, cfg0 := cfg0 }

/-- BC1, BC4, BC5 and BC7 sessions with the defaults of 95_test_vectors.md. -/
def bc1 : State := session 0x00043601
def bc4 : State := session 0x00043602
def bc5 : State := session 0x00043603
def bc7 : State := session 0x00043604

/-- A tile of one colour. -/
def solid (w : Word) : Vector Word 16 := Vector.replicate 16 w

/-- The grey ramp of 95_test_vectors.md 2.3. -/
def ramp : Vector Word 16 := Vector.ofFn fun p => BitVec.ofNat 32 (0xFF000000 + 0x111111 * p.val)

/-- The two-channel ramp (17p, 255 - 17p, 0, 255) of 95_test_vectors.md 2.9. -/
def ramp2 : Vector Word 16 := Vector.ofFn fun p => BitVec.ofNat 32 (0xFF000000 + 17 * p.val + 256 * (255 - 17 * p.val))

/-- The block whose words are the four given. -/
def blockWords (w0 w1 w2 w3 : Word) : Vector Byte 16 :=
  setBlockWord (setBlockWord (setBlockWord (setBlockWord (Vector.replicate 16 0) 0 w0) 1 w1) 2 w2) 3 w3

/-- The state with the selector registers given. -/
def withSel (a b c d : Word) (s : State) : State := s.setSel #v[a, b, c, d]

/-- What `f` reads in the next state, if there is one. -/
def after {α : Type} (f : State → α) : Host.Outcome State Fault Refusal → Option α
  | .next t => some (f t)
  | .fault _ => none
  | .refused _ => none

/-- A command in flight with `n` unit steps left. -/
def flying (w : Word) (n : Nat) (s : State) : State := s.setLatch (some ⟨w, n⟩)

/-! ## Well-formedness -/

theorem test_wf_pack_bc7_refused : definedPair .pack .bc7 = false := by decide
theorem test_wf_select_bc7_refused : definedPair .select .bc7 = false := by decide
theorem test_wf_context_with_format_refused :
    definedPair .init .bc1 = false ∧ definedPair .destroy .bc4 = false ∧ definedPair .reset .bc7 = false := by decide
theorem test_wf_data_without_format_refused :
    definedPair .eval .none = false ∧ definedPair .encode .none = false := by decide
theorem test_wf_offset_outside_refused : offsetInWindow 0x100 = false ∧ offsetInWindow 0x0FF = true := by decide
theorem test_wf_narrow_or_misaligned_refused : acceptedAccess .byte 0 = false ∧ acceptedAccess .half 4 = false ∧
    acceptedAccess .word 2 = false ∧ acceptedAccess .word 0x0FC = true := by decide
theorem test_wf_host_op_refused : (HostOp.read .word (.window 0x100)).wellFormed = false ∧
    (HostOp.write .byte (.window 0x090) 0).wellFormed = false ∧
    (HostOp.read .word (.window 0x041)).wellFormed = false ∧
    (HostOp.read .word (.absolute 0)).wellFormed = false := by decide

/-! ## Decoding: OP in bits 7:0, FMT in bits 10:8, written out from 30_encoding.md R70 to R73 -/

theorem test_decode_context : decodeWord 0b00000000000000000000000000000001 = .ok .init ∧
    decodeWord 0b00000000000000000000000000000010 = .ok .destroy ∧
    decodeWord 0b00000000000000000000000000000011 = .ok .reset := by decide
theorem test_decode_pack : decodeWord 0b00000000000000000000000100010000 = .ok .packBc1 ∧
    decodeWord 0b00000000000000000000001000010000 = .ok .packBc4 ∧
    decodeWord 0b00000000000000000000001100010000 = .ok .packBc5 := by decide
theorem test_decode_unpack : decodeWord 0b00000000000000000000000100010001 = .ok .unpackBc1 ∧
    decodeWord 0b00000000000000000000001000010001 = .ok .unpackBc4 ∧
    decodeWord 0b00000000000000000000001100010001 = .ok .unpackBc5 ∧
    decodeWord 0b00000000000000000000010000010001 = .ok .unpackBc7 := by decide
theorem test_decode_select : decodeWord 0b00000000000000000000000100010010 = .ok .selectBc1 ∧
    decodeWord 0b00000000000000000000001000010010 = .ok .selectBc4 ∧
    decodeWord 0b00000000000000000000001100010010 = .ok .selectBc5 := by decide
theorem test_decode_encode : decodeWord 0b00000000000000000000000100010011 = .ok .encodeBc1 ∧
    decodeWord 0b00000000000000000000001000010011 = .ok .encodeBc4 ∧
    decodeWord 0b00000000000000000000001100010011 = .ok .encodeBc5 ∧
    decodeWord 0b00000000000000000000010000010011 = .ok .encodeBc7 := by decide
theorem test_decode_eval : decodeWord 0b00000000000000000000000100010100 = .ok .evalBc1 ∧
    decodeWord 0b00000000000000000000001000010100 = .ok .evalBc4 ∧
    decodeWord 0b00000000000000000000001100010100 = .ok .evalBc5 ∧
    decodeWord 0b00000000000000000000010000010100 = .ok .evalBc7 := by decide
theorem test_decode_bytes : decodeBytes [0x13, 0x04, 0x00, 0x00, 0xAA] = .ok (.encodeBc7, [0xAA]) := by decide
/-- 30_encoding.md R74, one word per reason. -/
theorem test_decode_rejects : decodeWord 0x00000801 = .error .reservedBits ∧
    decodeWord 0x00000000 = .error .undefinedOp ∧
    decodeWord 0x00000513 = .error .reservedFmt ∧ decodeWord 0x00000101 = .error .contextWithFormat ∧
    decodeWord 0x00000013 = .error .dataWithoutFormat ∧ decodeWord 0x00000410 = .error .packBc7 ∧
    decodeWord 0x00000412 = .error .selectBc7 ∧ decodeBytes [0x01, 0x00, 0x00] = .error .truncated := by decide

/-! ## Context commands (95_test_vectors.md 2.12) -/

theorem test_init : after State.statusWord (exec .init { State.reset with cfg0 := 0x00043601 }) = some 0x00000006 := by
  decide +kernel
theorem test_init_rejects :
    after State.statusWord (exec .init { State.reset with cfg0 := 0x00043700 }) = some 0x00000202 ∧
    after State.statusWord (exec .init { State.reset with cfg0 := 0x00043681 }) = some 0x00000402 := by decide +kernel
theorem test_destroy : after State.statusWord (exec .destroy { bc1 with tile := solid 1 }) = some 0x00000002 ∧
    after State.tile (exec .destroy { bc1 with tile := solid 1 }) = some (solid 0) := by decide +kernel
theorem test_reset : after State.statusWord (exec .reset { bc1 with err := 7 }) = some 0x00000006 ∧
    after State.err (exec .reset { bc1 with err := 7 }) = some 0 := by decide +kernel
theorem test_illegal_word : after State.statusWord (runWord 0x00000410 State.reset) = some 0x00000202 ∧
    after State.statusWord (runWord 0x00000113 State.reset) = some 0x00000302 := by decide +kernel

/-! ## PACK and UNPACK (95_test_vectors.md 2.2, 2.6, 2.9, 2.10) -/

theorem test_pack_bc1 :
    after State.block (exec .packBc1 (withSel 0x32103210 0x32103210 0 0 { bc1 with endp := 0x001FF800 })) =
    some (blockWords 0x001FF800 0xE4E4E4E4 0 0) := by decide +kernel
theorem test_pack_bc1_selector_range : after State.statusWord (exec .packBc1 (withSel 4 0 0 0 bc1)) = some 0x00000206 ∧
    after State.statusWord (exec .packBc1 (withSel 0 0 0xFFFFFFFF 0 bc1)) = some 0x00000006 := by decide +kernel
theorem test_pack_bc4 :
    after State.block (exec .packBc4 (withSel 0x76543210 0x76543210 0 0 { bc4 with endp := 0x000064C8 })) =
    some (blockWords 0xC68864C8 0xFAC688FA 0 0) := by decide +kernel
theorem test_pack_bc4_selector_range :
    after State.statusWord (exec .packBc4 (withSel 0 0x80000000 0 0 bc4)) = some 0x00000206 := by decide +kernel
theorem test_pack_bc5 :
    after State.block
      (exec .packBc5 (withSel 0x76543210 0x76543210 0x01234567 0x01234567 { bc5 with endp := 0x03FC03FC })) =
      some (blockWords 0xC68803FC 0xFAC688FA 0x397703FC 0x05397705) := by decide +kernel
theorem test_unpack_bc1 :
    after (fun t => [t.out[0], t.out[1], t.out[2], t.out[3]])
      (exec .unpackBc1 { bc1 with block := blockWords 0xF800001F 0xE4E4E4E4 9 9 }) =
      some [0xFFFF0000, 0xFF0000FF, 0xFF7F007F, 0x00000000] := by decide +kernel
theorem test_unpack_bc4 :
    after (fun t => [t.out[0], t.out[3], t.out[5], t.out[7]])
      (exec .unpackBc4 { bc4 with block := blockWords 0xC68864C8 0xFAC688FA 0 0 }) =
      some [0xFF0000C8, 0xFF0000AB, 0xFF00008E, 0xFF000072] := by decide +kernel
theorem test_unpack_bc4_sentinels :
    after (fun t => [t.out[2], t.out[5], t.out[6], t.out[7]])
      (exec .unpackBc4 { bc4 with block := blockWords 0xC688C864 0xFAC688FA 0 0 }) =
      some [0xFF000078, 0xFF0000B4, 0xFF000000, 0xFF0000FF] := by decide +kernel
theorem test_unpack_bc5 :
    after (fun t => [t.out[0], t.out[1], t.out[6], t.endp])
      (exec .unpackBc5 { bc5 with block := blockWords 0xC68803FC 0xFAC688FA 0x397703FC 0x05397705 }) =
      some [0xFF0026FC, 0xFF004A03, 0xFF00034A, 0x03FC03FC] := by decide +kernel
theorem test_unpack_bc7_mode6 :
    after (fun t => [t.out[0], t.out[1], t.out[7], t.out[8], t.out[15]])
      (exec .unpackBc7 { bc7 with block := blockWords 0xF01FC040 0x7FFFFC07 0x76543211 0xFEDCBA98 }) =
      some [0xFE000000, 0xFE101010, 0xFE787878, 0xFF878787, 0xFFFFFFFF] := by decide +kernel
/-- Mode 4 with index selection 1. -/
theorem test_unpack_bc7_mode4 :
    after (fun t => [t.out[1], t.out[3], t.out[4], t.out[6]])
      (exec .unpackBc7 { bc7 with block := blockWords 0x0F83E090 0xC9CBF03E 0xC689C9C9 0xFAC688FA }) =
      some [0x54242424, 0xFF6C6C6C, 0x00939393, 0xABDBDBDB] := by decide +kernel

/-! ## SELECT and EVAL (95_test_vectors.md 2.3, 2.4, 2.7, 2.9, 2.10) -/

theorem test_select_bc1 :
    after (fun t => (t.sel[0], t.sel[1], t.err)) (exec .selectBc1 { bc1 with tile := ramp, endp := 0x0000FFFF }) =
    some (0x33333111, 0x00022222, 26010) := by decide +kernel
/-- The tie rule: entries 1 and 2 are equally far. -/
theorem test_select_bc1_tie :
    after (fun t => (t.sel[0], t.err)) (exec .selectBc1 { bc1 with tile := solid 0xFFBFBFBF, endp := 0xFFFF0000 }) =
    some (0x11111111, 196608) := by decide +kernel
theorem test_select_bc4 :
    after (fun t => (t.sel[0], t.err, blockWord t.block 0))
      (exec .selectBc4 { bc4 with tile := solid 0xFF000096, endp := 0x000064C8 }) =
    some (0x44444444, 784, 0x492464C8) := by decide +kernel
theorem test_select_bc4_tie :
    after (fun t => (t.sel[0], t.err)) (exec .selectBc4 { bc4 with tile := solid 130, endp := 0x0000C864 }) =
    some (0x22222222, 1600) := by decide +kernel
theorem test_select_bc5 :
    after (fun t => (t.sel[2], t.sel[3], t.err)) (exec .selectBc5 { bc5 with tile := ramp2, endp := 0x03FC03FC }) =
    some (0x44332200, 0x11776655, 2728) := by decide +kernel
theorem test_eval_bc1 :
    after (fun t => (t.out[0], t.err))
      (exec .evalBc1 { bc1 with tile := solid 0xFF3264C8, block := blockWords 0xC326C326 0 0 0 }) =
    some (0xFF3165C6, 96) := by decide +kernel
theorem test_eval_bc1_weighted : after State.err (exec .evalBc1 { session 0x00043609 with
    cfg2 := 0x01010102, tile := solid 0xFF3264C8, block := blockWords 0xC326C326 0 0 0 }) = some 160 := by decide +kernel
theorem test_eval_bc4 :
    after State.err
      (exec .evalBc4 { bc4 with tile := solid 0xFF000096, block := blockWords 0xC68864C8 0xFAC688FA 0 0 }) =
    some 17118 := by decide +kernel
/-- Only channel CH0 is read: G of this tile is 90. -/
theorem test_eval_bc4_channel :
    after State.err
      (exec .evalBc4 { session 0x00053602 with tile := solid 0xFF005A00, block := blockWords 0x00005A5A 0 0 0 }) =
    some 0 := by decide +kernel
theorem test_eval_bc5 : after State.err (exec .evalBc5 { bc5 with
    tile := ramp2, block := blockWords 0x6FC903FC 0x0126E4B7 0xB48003FC 0x27FDAD91 }) = some 2728 := by decide +kernel
theorem test_eval_bc7 : after State.err (exec .evalBc7 { bc7 with
    tile := solid 0xFE000000, block := blockWords 0xF01FC040 0x7FFFFC07 0x76543211 0xFEDCBA98 }) = some 0x00105FE0 := by
  decide +kernel
/-- Mode 5 with rotation 1. -/
theorem test_eval_bc7_rotation :
    after (fun t => [t.out[0], t.out[1], t.out[2], t.out[3]])
      (exec .evalBc7 { bc7 with block := blockWords 0xE03F8060 0xFC03F80F 0xC9C9C9CB 0x1B1B1B1B }) =
      some [0x00000054, 0x545454AB, 0xABABAB54, 0xFFFFFF00] := by decide +kernel

/-! ## ENCODE (95_test_vectors.md 2.5, 2.8, 2.9, 2.11) -/

theorem test_encode_bc1_solid :
    after (fun t => (t.endp, t.sel[0], t.err)) (exec .encodeBc1 { bc1 with tile := solid 0xFF3264C8 }) =
    some (0xC326C326, 0, 96) := by decide +kernel
/-- UBER = 2: the diagonals and one refinement pass. -/
theorem test_encode_bc1_refines :
    after (fun t => (t.endp, t.sel[0], t.err)) (exec .encodeBc1 { session 0x00043201 with tile := ramp }) =
    some (0x0800FFFF, 0x33333111, 25531) := by decide +kernel
theorem test_encode_bc4 :
    after (fun t => (t.endp, t.sel[0], t.err)) (exec .encodeBc4 { session 0x00041602 with tile := ramp }) =
    some (0x000001FE, 0x55667711, 1524) := by decide +kernel
/-- Radius 0 on both channels: twice the first row of 95_test_vectors.md 2.8, the second channel mirrored. -/
theorem test_encode_bc5 :
    after (fun t => (t.endp, t.err)) (exec .encodeBc5 { session 0x00040603 with tile := ramp2 }) =
    some (0x00FF00FF, 3320) := by decide +kernel
theorem test_encode_bc7_clears :
    after (fun t => (t.result, t.endp, t.sel[0], t.sel[3]))
      (exec .encodeBc7 { bc7 with endp := 5, sel := #v[1, 1, 1, 1] }) =
    some (0, 0, 0, 0) := by rfl

/-! ## The window (95_test_vectors.md 2.12) -/

theorem test_write_dropped_while_busy : after (fun t => (t.ovr, t.tile[0])) (step { flying 0x00000113 2 bc1 with
    host := [.write .word (.window 0x040) 5] }) = some (true, 0) := by decide +kernel
theorem test_config_locked : after (fun t => (t.cfg0, t.ovr)) (step { bc1 with
    host := [.write .word (.window 0x010) 0x00043602] }) = some (0x00043601, false) := by decide +kernel
theorem test_status_write_one_to_clear : after State.statusWord (step { State.reset with
    done := true, ovr := true, result := 3, host := [.write .word (.window 0x004) 0x0000000A] }) = some 0x00000300 := by
  decide +kernel
theorem test_wait_completes : after State.statusWord (step { flying 0x00000003 9 bc1 with host := [.wait] }) =
    some 0x00000006 := by decide +kernel
theorem test_fetch_word :
    after State.statusWord (step (State.reset.withFetchWord 32 0x00000113)) = some 0x00000302 := by
  decide +kernel

/-! ## Witnesses: for each statement with hypotheses, states and operands that meet them, clause by clause -/

/-- A session with a tile that is not solid, a block and endpoints. -/
def busyData (s : State) : State :=
  { s with tile := ramp, block := blockWords 0xF800001F 0xE4E4E4E4 1 2, endp := 0x03FC03FC }

theorem witness_CommandBytesRoundTrip : decodeBytes [0x10, 0x01, 0x00, 0x00, 0x07] = .ok (.packBc1, [0x07]) := by decide

theorem witness_IllegalWordIsBadParameter :
    (∀ i, (0x00000410 : Word) ≠ encode i) ∧ (∀ i, (0x00000801 : Word) ≠ encode i) ∧
    (∀ i, (0x00000000 : Word) ≠ encode i) ∧ State.reset.busy = false ∧ (flying 0x00000410 1 bc1).host = [] ∧
    (flying 0x00000410 1 bc1).latch = some ⟨0x00000410, 1⟩ := by
  refine ⟨fun i => ?_, fun i => ?_, fun i => ?_, rfl, rfl, rfl⟩ <;> cases i <;> decide

theorem witness_HardwareResetFromAnyState :
    { flying 0x00000113 3 (busyData bc1) with host := [.hardReset, .wait] }.host = .hardReset :: [.wait] := rfl

/-- After reset, in a session with a command in flight, and at the largest error. -/
theorem witness_StepKeepsLegalState : StateOk State.reset ∧ step State.reset = .next State.reset ∧
    StateOk (flying 0x00000113 2 bc1) ∧ step (flying 0x00000113 2 bc1) = .next (flying 0x00000113 1 bc1) ∧
    StateOk { bc1 with err := 1061208000 } ∧
    step { bc1 with err := 1061208000 } = .next { bc1 with err := 1061208000 } := by
  refine ⟨⟨.inl rfl, ?_, ?_, ?_, ?_⟩, rfl, ⟨.inl rfl, ?_, ?_, ?_, ?_⟩, rfl, ⟨.inl rfl, ?_, ?_, ?_, ?_⟩, rfl⟩ <;>
    simp [flying, bc1, session, State.reset, State.busy, maxError] <;> decide +kernel

theorem witness_WindowMapAndBase : (0x00C < 256 ∧ 0x00C % 4 = 0) ∧ (0x0BC < 256 ∧ 0x0BC % 4 = 0) ∧
    (0x0FC < 256 ∧ 0x0FC % 4 = 0) ∧ windowOffset (.absolute (Config.bcuBase + 255)) = some 255 := by
  refine ⟨by decide, by decide, by decide, ?_⟩
  simp [windowOffset, offsetInWindow]

theorem witness_BadAccessFaults : windowOffset (.window 0x0FF) = some 0x0FF ∧ 0x0FF % 4 ≠ 0 ∧ Width.byte ≠ .word ∧
    windowOffset (.window 0x0FC) = some 0x0FC ∧ 0x0FC % 4 = 0 ∧ windowOffset (.absolute (Config.bcuBase + 2)) = some 2 ∧
    { bc1 with host := [.read .word (.window 0x0FF)] }.host = .read .word (.window 0x0FF) :: [] ∧
    { bc1 with host := [.write .half (.window 0x0FC) 1] }.host = .write .half (.window 0x0FC) 1 :: [] ∧
    { bc1 with host := [.write .word (.window 0x0FC) 1] }.host = .write .word (.window 0x0FC) 1 :: [] := by
  refine ⟨rfl, by decide, by decide, rfl, by decide, ?_, rfl, rfl, rfl⟩
  simp [windowOffset, offsetInWindow]

theorem witness_WellBehavedHostNeverStops : WellBehavedHost { bc1 with
    host := [.read .word (.window 0x0FC), .write .word (.window 0x000) 0, .tick, .wait, .hardReset] } := by
  intro e he
  simp at he
  rcases he with rfl | rfl | rfl | rfl | rfl <;> decide

theorem witness_HostAccessStep : 0x0FC < 256 ∧ 0x0FC % 4 = 0 ∧
    { bc1 with host := [.read .word (.window 0x0FC)] }.host = .read .word (.window 0x0FC) :: [] ∧
    { bc1 with host := [.write .word (.window 0x0FC) 9] }.host = .write .word (.window 0x0FC) 9 :: [] := by
  decide +kernel

/-- The ends of each reserved range, in a busy state; an idle state without a context; each reserved field set. -/
theorem witness_ReservedOffsetsAndBits :
    (∀ o ∈ [0x00C, 0x01C, 0x03C, 0x094, 0x0AC, 0x0BC],
      o = 0x00C ∨ (0x01C ≤ o ∧ o ≤ 0x03C ∧ o % 4 = 0) ∨ o = 0x094 ∨ (0x0AC ≤ o ∧ o ≤ 0x0BC ∧ o % 4 = 0)) ∧
    { flying 1 2 bc1 with host := [.read .word (.window 0x00C)] }.host = .read .word (.window 0x00C) :: [] ∧
    { flying 1 2 bc1 with host := [.write .word (.window 0x0BC) 1] }.host = .write .word (.window 0x0BC) 1 :: [] ∧
    State.reset.busy = false ∧ State.reset.ctxv = false ∧
    { State.reset with cfg0 := 0x00043E04 }.cfg0.getLsbD 11 = true ∧
    { State.reset with cfg0 := 0x80043604 }.cfg0.extractLsb' 20 12 ≠ 0 ∧
    { State.reset with cfg1 := 0x0000C0FF }.cfg1.extractLsb' 15 17 ≠ 0 := by decide +kernel

/-- Offsets of dropped writes (the first and the last), a reserved one, and a read. -/
theorem witness_WritesWhileBusyAreDropped : (flying 0x00000113 2 bc1).busy = true ∧
    regAt 0x000 ≠ none ∧ regAt 0x0FC ≠ none ∧ 0x0FC < 256 ∧ 0x0FC % 4 = 0 ∧ regAt 0x03C = none ∧
    { flying 0x00000113 2 bc1 with host := [.read .word (.window 0x0FC)] }.host = .read .word (.window 0x0FC) :: [] := by
  decide +kernel

/-- ERR, the first and the last OUT register, CFG0 and CFG2, idle and busy. -/
theorem witness_ReadOnlyAndLockedWritesIgnored :
    (∀ o ∈ [0x0A8, 0x0C0, 0x0FC], o = 0x0A8 ∨ (0x0C0 ≤ o ∧ o < 0x100 ∧ o % 4 = 0)) ∧ bc1.ctxv = true ∧
    bc1.busy = false ∧ (flying 1 2 bc1).busy = true ∧ (flying 1 2 bc1).ctxv = true ∧
    (∀ o ∈ [0x0A8, 0x0FC, 0x010, 0x018], ∀ s ∈ [bc1, flying 1 2 bc1],
      (s.setHost [.write .word (.window o) 1]).host = .write .word (.window o) 1 :: []) := by decide +kernel

theorem witness_IdleWriteThenRead : State.reset.busy = false ∧ State.reset.ctxv = false ∧ bc1.busy = false ∧
    Reg.cfg2 ∈ [Reg.cfg0, .cfg1, .cfg2] ∧ (∃ p, Reg.tile 15 = .tile p) ∧ (∃ k, Reg.blockWord 3 = .blockWord k) ∧
    ∃ k, Reg.sel 0 = .sel k := ⟨rfl, rfl, rfl, by decide, ⟨15, rfl⟩, ⟨3, rfl⟩, ⟨0, rfl⟩⟩

theorem witness_InterruptLevel : runWord 0x00000113 State.reset = .next (finish .badContext State.reset) ∧
    runWord 0x00000410 bc1 = .next (finish .badParameter bc1) ∧ (0x00000002 : Word).getLsbD 1 = true ∧
    State.reset.busy = false := ⟨rfl, rfl, by decide, rfl⟩

theorem witness_ByteLanesAreLittleEndian : 0x000 % 4 = 0 ∧ 0x0FC % 4 = 0 := by decide

theorem witness_IssueLatchesTheWord : State.reset.busy = false ∧ (flying 1 1 bc1).busy = true := by decide

/-- The last unit step, by itself, by a tick and under WAIT; one before it; and a latch with no step left. -/
theorem witness_StepRunsTheDecodedCommand : decodeWord 0x00000113 = .ok .encodeBc1 ∧
    (flying 0x00000113 1 bc1).latch = some ⟨0x00000113, 1⟩ ∧ (flying 0x00000113 1 bc1).host = [] ∧
    { flying 0x00000113 0 bc1 with host := [.tick, .wait] }.host = .tick :: [.wait] ∧
    { flying 0x00000113 9 bc1 with host := [.wait] }.host = .wait :: [] ∧
    (flying 0x00000113 2 bc1).host = [] ∧ (1 : Nat) < 2 := by decide +kernel

theorem witness_LatencyIsUnobservable : (flying 0x00000003 3 bc1).latch = some ⟨0x00000003, 2 + 1⟩ ∧
    runWord 0x00000003 { flying 0x00000003 3 bc1 with host := [] } = .next (finish .success (zeroData bc1)) ∧
    { flying 0x00000003 3 bc1 with host := List.replicate 3 HostOp.tick ++ [] }.host = List.replicate (2 + 1) .tick ++ [] ∧
    { flying 0x00000003 3 bc1 with host := [.wait] }.host = .wait :: [] := ⟨rfl, rfl, rfl, rfl⟩

theorem witness_InFlightCommandKeepsRegisters :
    step (flying 0x00000113 2 bc1) = .next (flying 0x00000113 1 bc1) ∧ (flying 0x00000113 2 bc1).busy = true ∧
    (flying 0x00000113 1 bc1).busy = true := ⟨rfl, rfl, rfl⟩

/-- A completion that changes BUSY, DONE and RESULT; hardware reset of a command in flight. -/
theorem witness_StatusChangesOnlyAtCompletion :
    step (flying 0x00000410 1 State.reset) = .next (finish .badParameter State.reset) ∧
    (flying 0x00000410 1 State.reset).busy = true ∧ (flying 0x00000410 1 State.reset).done = false ∧
    (finish .badParameter State.reset).busy = false ∧ (finish .badParameter State.reset).done = true ∧
    (finish .badParameter State.reset).result ≠ State.reset.result ∧
    step { flying 1 2 { State.reset with result := 3 } with host := [.hardReset] } = .next State.reset :=
  ⟨rfl, rfl, rfl, rfl, rfl, by decide, rfl⟩

theorem witness_ContextChangesOnlyByItsCommands :
    step (flying 0x00000001 1 State.reset) = .next (finish .success { State.reset with ctxv := true }) ∧
    State.reset.ctxv = false ∧
    step (flying 0x00000002 1 bc1) = .next (finish .success { bc1 with ctxv := false }) ∧ bc1.ctxv = true :=
  ⟨rfl, rfl, rfl, rfl⟩

theorem witness_ConfigurationFixedInSession :
    step { bc1 with host := [.write .word (.window 0x010) 0] } = .next bc1 ∧ bc1.ctxv = true ∧
    ∀ rest, { bc1 with host := [.write .word (.window 0x010) 0] }.host ≠ .hardReset :: rest :=
  ⟨rfl, rfl, fun _ => by simp⟩

/-- A dropped write sets OVR; a STATUS write and hardware reset clear it. -/
theorem witness_OverrunOnlyByDroppedWrite :
    step { flying 1 2 bc1 with host := [.write .word (.window 0x000) 1] } = .next { flying 1 2 bc1 with ovr := true } ∧
    (flying 1 2 bc1).busy = true ∧ windowOffset (.window 0x000) = some 0x000 ∧ regAt 0x000 ≠ none ∧
    (flying 1 2 bc1).ovr = false ∧
    step { bc1 with ovr := true, host := [.write .word (.window 0x004) 8] } = .next bc1 ∧
    windowOffset (.window 0x004) = some 0x004 ∧ (8 : Word).getLsbD 3 = true ∧
    step { State.reset with ovr := true, host := [.hardReset] } = .next State.reset :=
  ⟨rfl, rfl, rfl, by decide, rfl, rfl, rfl, by decide, rfl⟩

theorem witness_FailedCommandChangesOnlyStatus :
    runWord 0x00000113 State.reset = .next (finish .badContext State.reset) ∧
    (finish .badContext State.reset).result ≠ 0 ∧
    runWord 0xFFFFFFFF bc1 = .next (finish .badParameter bc1) ∧ (finish .badParameter bc1).result ≠ 0 :=
  ⟨rfl, by decide, rfl, by decide⟩

/-- A state for each check: selector nibbles just above the range, a format one off, a configuration INIT refuses. -/
theorem witness_CommonChecksInOrder : (∀ i, (0x00000015 : Word) ≠ encode i) ∧ bc1.ctxv = true ∧
    State.reset.ctxv = false ∧
    Instr.encodeBc4.op.isContext = false ∧ (bc1.cfg0.extractLsb' 0 3).toNat ≠ Instr.encodeBc4.fmt.code ∧
    validate 0x00043700 0x000040FF 0x01010101 ≠ .success ∧
    Ready .bc1 (withSel 0 0x40000000 0 0 bc1) ∧ 3 < selNibble (withSel 0 0x40000000 0 0 bc1).sel 0 15 ∧
    Ready .bc4 (withSel 8 0 0 0 bc4) ∧ 7 < selNibble (withSel 8 0 0 0 bc4).sel 0 0 ∧
    Ready .bc5 (withSel 0 0 0 0x80000000 bc5) ∧ 7 < selNibble (withSel 0 0 0 0x80000000 bc5).sel 1 15 ∧
    Instr.evalBc7.op ≠ .pack ∧ Instr.evalBc7.op.isContext = false ∧ Ready Instr.evalBc7.fmt bc7 := by
  refine ⟨fun i => by cases i <;> decide, ?_⟩
  unfold Ready
  decide +kernel

/-- Every command answers in a session, with or without Success. -/
theorem witness_CommandsWriteOnlyTheirRegisters : ∀ i, ∃ t, exec i (busyData bc1) = .next t :=
  fun i => exec_answers i _

/-- The bytes on either side of what EVAL writes. -/
theorem witness_WindowBytesOutsideResultsKept : (∃ t, exec .evalBc1 (busyData bc1) = .next t) ∧
    (∀ o ∈ [0x000, 0x003, 0x008, 0x093, 0x0A7, 0x0BF], o < 256 ∧ ¬ (0x004 ≤ o ∧ o < 0x008) ∧
      ∀ part, partAtByte o = some part → part ∉ partsWritten .evalBc1) := by
  refine ⟨exec_answers _ _, ?_⟩
  intro o ho
  simp only [List.mem_cons, List.not_mem_nil, or_false] at ho
  rcases ho with rfl | rfl | rfl | rfl | rfl | rfl <;> simp [partAtByte, partsWritten]

/-- The two states differ in what the command does not read. -/
theorem witness_ResultsAreAFunctionOfReads :
    SameReads .unpackBc1 (busyData bc1) { busyData bc1 with tile := solid 3, err := 1 } ∧
    (∃ t, exec .unpackBc1 (busyData bc1) = .next t) ∧
    ∃ t, exec .unpackBc1 { busyData bc1 with tile := solid 3, err := 1 } = .next t :=
  ⟨⟨rfl, rfl, rfl⟩, exec_answers _ _, exec_answers _ _⟩

/-- Two sessions that held different data, and a run of one step after RESET. -/
theorem witness_RunsForgetTheStateBeforeReset : bc1.ctxv = true ∧ (busyData bc1).ctxv = true ∧
    bc1.cfg0 = (busyData bc1).cfg0 ∧ bc1.cfg1 = (busyData bc1).cfg1 ∧ bc1.cfg2 = (busyData bc1).cfg2 ∧
    bc1.host = (busyData bc1).host ∧ exec .reset bc1 = .next (finish .success (zeroData bc1)) ∧
    exec .reset (busyData bc1) = .next (finish .success (zeroData (busyData bc1))) ∧
    Host.Core.run Sys2Proof.core 1 (finish .success (zeroData bc1)) = .next (finish .success (zeroData bc1)) :=
  ⟨rfl, rfl, rfl, rfl, rfl, rfl, rfl, rfl, run_succ 0 _ _ rfl⟩

theorem witness_InitOpensContext : State.reset.ctxv = false ∧
    validate State.reset.cfg0 State.reset.cfg1 State.reset.cfg2 = .success ∧ bc1.ctxv = true ∧
    validate State.reset.cfg0 0x000041FF State.reset.cfg2 ≠ .success := by decide +kernel

/-- The bounds of BC7_MAX_PART on both sides (no hypothesis; the clauses of Validate() meet here). -/
theorem witness_ValidateChecksInOrder : validate 0x00043604 0x000040FF 0 = .success ∧
    validate 0x00043604 0x000041FF 0 = .badParameter ∧ validate 0x00043604 0x000000FF 0 = .badParameter ∧
    validate 0x00043605 0x000040FF 0 = .initializationFailed := by decide +kernel

theorem witness_DestroyAndResetZeroData : (busyData bc1).ctxv = true ∧ State.reset.ctxv = false := by decide +kernel

/-- Selectors at the top of the range and just above it. -/
theorem witness_PackBc1Result : Ready .bc1 (withSel 0x33333333 0x33333333 0xF 0 bc1) ∧
    (∀ p, selNibble (withSel 0x33333333 0x33333333 0xF 0 bc1).sel 0 p ≤ 3) ∧
    Ready .bc1 (withSel 4 0 0 0 bc1) ∧ 3 < selNibble (withSel 4 0 0 0 bc1).sel 0 0 := by
  unfold Ready
  decide +kernel

theorem witness_PackBc4Bc5Result : Ready .bc4 (withSel 0x77777777 0x77777777 0xF 0xF bc4) ∧
    (∀ p, selNibble (withSel 0x77777777 0x77777777 0xF 0xF bc4).sel 0 p ≤ 7) ∧
    Ready .bc4 (withSel 8 0 0 0 bc4) ∧ 7 < selNibble (withSel 8 0 0 0 bc4).sel 0 0 ∧
    Ready .bc5 (withSel 0x77777777 0x77777777 0x77777777 0x77777777 bc5) ∧
    (∀ k p, selNibble (withSel 0x77777777 0x77777777 0x77777777 0x77777777 bc5).sel k p ≤ 7) ∧
    Ready .bc5 (withSel 0 0 8 0 bc5) ∧ 7 < selNibble (withSel 0 0 8 0 bc5).sel 1 0 := by
  unfold Ready
  decide +kernel

theorem witness_UnpackBc1Result : Ready .bc1 (busyData bc1) := by
  unfold Ready
  decide +kernel

theorem witness_UnpackBc4Bc5Result : Ready .bc4 (busyData bc4) ∧ Ready .bc5 (busyData bc5) := by
  unfold Ready
  decide +kernel

/-- A block without a mode, one of mode 3, and one of mode 4, which falls under neither clause. -/
theorem witness_UnpackBc7Result : Ready .bc7 bc7 ∧ bc7.block[0] = 0 ∧
    Ready .bc7 { bc7 with block := blockWords 0x08 0 0 0 } ∧
    ({ bc7 with block := blockWords 0x08 0 0 0 }.block[0]).toNat % 16 ≠ 0 ∧
    ¬ ({ bc7 with block := blockWords 0x10 0 0 0 }.block[0]).toNat % 16 ≠ 0 := by
  unfold Ready
  decide +kernel

/-- Ready with any block: one block for each mode, its lowest 1 bit alone, and one of mode 6 with bit 7 set too. -/
theorem witness_UnpackBc7EveryMode : (∀ w, Ready .bc7 { bc7 with block := blockWords w 0 0 0 }) ∧
    (blockWords 0x01 0 0 0)[0].toNat % 2 = 1 ∧ (blockWords 0x02 0 0 0)[0].toNat % 4 = 2 ∧
    (blockWords 0x04 0 0 0)[0].toNat % 8 = 4 ∧ (blockWords 0x08 0 0 0)[0].toNat % 16 = 8 ∧
    (blockWords 0x10 0 0 0)[0].toNat % 32 = 16 ∧ (blockWords 0x20 0 0 0)[0].toNat % 64 = 32 ∧
    (blockWords 0x40 0 0 0)[0].toNat % 128 = 64 ∧ (blockWords 0xC0 0 0 0)[0].toNat % 128 = 64 ∧
    (blockWords 0x80 0 0 0)[0].toNat = 128 :=
  ⟨fun _ => ⟨rfl, (by decide : ((0x00043604 : Word).extractLsb' 0 3).toNat = Fmt.bc7.code)⟩, by decide +kernel⟩

theorem witness_Bc7FieldsTakeTheBlock : (0 : Nat) < 8 ∧ (7 : Nat) < 8 := by decide

/-- 4-colour mode by one, and equal endpoints, which are 3-colour mode. -/
theorem witness_Bc1PaletteRules : (1 : Nat) > 0 ∧ (0 : Nat) ≤ 0 ∧ ¬ (0xFFFF : Nat) > 0xFFFF := by decide

theorem witness_Bc1QuantizationBound : (255 : Nat) < 256 ∧ (31 : Nat) < 32 ∧ (63 : Nat) < 64 ∧ (65535 : Nat) < 65536 := by
  decide

theorem witness_Bc4PaletteAndWindow : (255 : Nat) > 254 ∧ (255 : Nat) ≤ 255 ∧ (255 : Nat) ∈ bc4Pal 255 255 := by decide

theorem witness_BestSelIsLeastThenSmallest : bc4Allowed ≠ [] ∧ bc4Allowed.Pairwise (· < ·) := by decide

theorem witness_SelectBc1Result : Ready .bc1 (busyData bc1) ∧ Ready .bc1 (busyData (session 0x000436C1)) := by
  unfold Ready
  decide +kernel

theorem witness_SelectBc4Bc5Result : Ready .bc4 (busyData (session 0x000F3602)) ∧ Ready .bc5 (busyData bc5) := by
  unfold Ready
  decide +kernel

/-- With and without PERCEPTUAL. -/
theorem witness_EvalBc1Bc7Result : Ready .bc1 (busyData (session 0x00043609)) ∧ Ready .bc7 (busyData bc7) ∧
    (session 0x00043609).cfg0.getLsbD 3 = true ∧ bc7.cfg0.getLsbD 3 = false := by
  unfold Ready
  decide +kernel

theorem witness_EvalBc4Bc5Result : Ready .bc4 (busyData bc4) ∧ Ready .bc5 (busyData bc5) := by
  unfold Ready
  decide +kernel

/-- A solid tile whose alphas differ; a tile that is not solid; BC1_USE3 = 0. -/
theorem witness_EncodeBc1Result : Ready .bc1 { bc1 with tile := (solid 0xFF3264C8).set 3 0x003264C8 } ∧
    (∀ p : Fin 16, ((solid 0xFF3264C8).set 3 0x003264C8)[p].extractLsb' 0 24 =
      ((solid 0xFF3264C8).set 3 0x003264C8)[(0 : Fin 16)].extractLsb' 0 24) ∧
    Ready .bc1 (busyData bc1) ∧ bc1.cfg0.getLsbD 6 = false := by
  unfold Ready
  decide +kernel

/-- UBER = 6, where passes are made, and UBER = 0, where the main diagonal alone is considered. -/
theorem witness_EncodeBc1BeatsEveryCandidate : Ready .bc1 (busyData bc1) ∧ Ready .bc1 (busyData (session 0x00043001)) ∧
    ¬ (∀ p : Fin 16, (busyData bc1).tile[p].extractLsb' 0 24 = (busyData bc1).tile[0].extractLsb' 0 24) ∧
    ∀ s, ∃ t, exec .encodeBc1 s = .next t :=
  ⟨by unfold Ready; decide +kernel, by unfold Ready; decide +kernel, by decide +kernel, exec_answers _⟩

/-- A solid channel and one that is not, with radius 0 and 15. -/
theorem witness_EncodeBc4Bc5Result : Ready .bc4 { session 0x00040602 with tile := solid 90 } ∧
    Ready .bc4 { session 0x0004F602 with tile := ramp } ∧ Ready .bc5 { bc5 with tile := ramp2 } := by
  unfold Ready
  decide +kernel

/-- The widest and the narrowest budget. -/
theorem witness_EncodeBc7Result : Ready .bc7 (busyData bc7) ∧ bc7.cfg1.extractLsb' 0 8 ≠ 0 ∧
    bc7.cfg1.extractLsb' 8 7 ≠ 0 ∧ Ready .bc7 { session 0x00043004 with cfg1 := 0x00000140 } ∧
    (0x00000140 : Word).extractLsb' 0 8 ≠ 0 ∧ (0x00000140 : Word).extractLsb' 8 7 ≠ 0 := by
  unfold Ready
  decide +kernel

theorem witness_Bc7SearchProperties : (∃ m < 8, 0x80 / 2 ^ m % 2 = 1) ∧ (1 : Nat) ≤ 1 ∧ (0 : Nat) ≤ 0 ∧ (1 : Nat) ≤ 64 ∧
    ∃ b, b ∈ bc7CandidateSet (solid 0) 0 1 0x80 := by
  refine ⟨⟨7, by decide, by decide⟩, le_rfl, le_rfl, by decide, ?_⟩
  unfold bc7CandidateSet bc7Base
  by_cases h : (Config.bc7Candidates (solid 0) 0 1 0x80).any (bc7Admitted 1 0x80) = true
  · obtain ⟨b, hb, ha⟩ := List.any_eq_true.1 h
    refine ⟨b, List.mem_filter.2 ⟨List.mem_append_right _ ?_, ha⟩⟩
    exact List.mem_flatMap.2 ⟨0, by decide, List.mem_flatMap.2 ⟨1, by decide, hb⟩⟩
  · refine ⟨bc7Seed 0x80, List.mem_filter.2 ⟨List.mem_append_left _ ?_, by decide +kernel⟩⟩
    rw [if_neg h]
    exact List.mem_singleton.2 rfl

/-- One below the top of each field: UBER 5, BC4_RADIUS 14, BC7_MAX_PART 63; and the bottom. -/
theorem witness_EncodeErrorFallsWithDepth :
    (Ready .bc1 (busyData (session 0x00043501)) ∧ ((0x00043501 : Word).extractLsb' 8 3).toNat < 6) ∧
    (Ready .bc4 (busyData (session 0x0004E602)) ∧ ((0x0004E602 : Word).extractLsb' 12 4).toNat < 15) ∧
    (Ready .bc5 (busyData (session 0x00040603)) ∧ ((0x00040603 : Word).extractLsb' 12 4).toNat < 15) ∧
    (Ready .bc7 (busyData (session 0x00043504)) ∧ ((0x00043504 : Word).extractLsb' 8 3).toNat < 6) ∧
    (Ready .bc7 { busyData bc7 with cfg1 := 0x00003FFF } ∧ (0x00003FFF : Word).extractLsb' 0 8 ≠ 0 ∧
      1 ≤ ((0x00003FFF : Word).extractLsb' 8 7).toNat ∧ ((0x00003FFF : Word).extractLsb' 8 7).toNat < 64) ∧
    ∀ i s, ∃ t, exec i s = .next t := by
  refine ⟨?_, ?_, ?_, ?_, ?_, exec_answers⟩ <;> (unfold Ready; decide +kernel)

theorem witness_Bc1RoundTrip : Ready .bc1 (withSel 0x33333333 0x33333333 5 5 (busyData bc1)) ∧
    ∀ p, selNibble (withSel 0x33333333 0x33333333 5 5 (busyData bc1)).sel 0 p ≤ 3 := by
  unfold Ready
  decide +kernel

theorem witness_Bc4Bc5RoundTrip : Ready .bc4 (withSel 0x76543210 0x76543210 9 9 (busyData bc4)) ∧
    (∀ p, selNibble (withSel 0x76543210 0x76543210 9 9 (busyData bc4)).sel 0 p ≤ 7) ∧
    Ready .bc5 (withSel 0x76543210 0x76543210 0x77777777 0 (busyData bc5)) ∧
    ∀ k p, selNibble (withSel 0x76543210 0x76543210 0x77777777 0 (busyData bc5)).sel k p ≤ 7 := by
  unfold Ready
  decide +kernel

end Sys2Proof.Tests
end

section
/-! Proofs about the state (10_state.md): a word of a command is its encoding, what a write, a completion and a step do
to STATUS, and the statements on STATUS, CTXV and OVR. -/

namespace Sys2Proof.Machine

/-! ## The decoder answers a command on its encoding alone (30_encoding.md R70 to R73) -/

theorem code_of_opOfCode {n : Nat} {o : Op} (h : opOfCode n = some o) : o.code = n := by
  unfold opOfCode at h
  split at h <;> cases h <;> rfl

theorem code_of_fmtOfCode {n : Nat} {f : Fmt} (h : fmtOfCode n = some f) : f.code = n := by
  unfold fmtOfCode at h
  split at h <;> cases h <;> rfl

theorem op_fmt_of_instrOfPair {o : Op} {f : Fmt} {i : Instr} (h : instrOfPair o f = .ok i) : i.op = o ∧ i.fmt = f := by
  unfold instrOfPair at h
  split at h <;> cases h <;> exact ⟨rfl, rfl⟩

/-- What the decoder has checked when it answers a command. -/
theorem fields_of_decodeWord {w : Word} {i : Instr} (h : decodeWord w = .ok i) :
    reservedField w = 0 ∧ opField w = i.op.code ∧ fmtField w = i.fmt.code := by
  unfold decodeWord at h
  split at h
  · cases h
  · next hres =>
    split at h
    · cases h
    · next o ho =>
      split at h
      · cases h
      · next f hf =>
        obtain ⟨rfl, rfl⟩ := op_fmt_of_instrOfPair h
        exact ⟨not_not.1 hres, (code_of_opOfCode ho).symm, (code_of_fmtOfCode hf).symm⟩

/-- The three fields make up the word, so a decoded word is the encoding of its command. -/
theorem eq_encode_of_decodeWord {w : Word} {i : Instr} (h : decodeWord w = .ok i) : w = encode i := by
  obtain ⟨hres, hop, hfmt⟩ := fields_of_decodeWord h
  apply BitVec.eq_of_toNat_eq
  rw [encode, ← hop, ← hfmt, BitVec.toNat_ofNat]
  unfold reservedField at hres
  unfold opField fmtField
  omega

/-! ## The fields of STATUS (10_state.md R23) -/

theorem getLsbD_of_div_mod {w : Word} {i : Nat} {b : Bool} (h : w.toNat / 2 ^ i % 2 = b.toNat) : w.getLsbD i = b := by
  rw [← BitVec.testBit_toNat, Nat.testBit_eq_decide_div_mod_eq, h]
  cases b <;> rfl

theorem extractLsb'_of_div_mod {w : Word} {lo n : Nat} {x : BitVec n} (h : w.toNat / 2 ^ lo % 2 ^ n = x.toNat) :
    w.extractLsb' lo n = x := by
  apply BitVec.eq_of_toNat_eq
  rw [BitVec.extractLsb'_toNat, Nat.shiftRight_eq_div_pow, h]

/-- The fields of STATUS do not overlap: RESULT and the reserved bits stand above four flags of one bit each. -/
theorem statusWord_fields (s : State) :
    s.statusWord.getLsbD 0 = s.busy ∧ s.statusWord.getLsbD 1 = s.done ∧ s.statusWord.getLsbD 2 = s.ctxv ∧
    s.statusWord.getLsbD 3 = s.ovr ∧ s.statusWord.extractLsb' 4 4 = 0 ∧ s.statusWord.extractLsb' 8 4 = s.result ∧
    s.statusWord.extractLsb' 12 20 = 0 := by
  have hword := statusWord_toNat s
  have hbusy := s.busy.toNat_le
  have hdone := s.done.toNat_le
  have hctxv := s.ctxv.toNat_le
  have hovr := s.ovr.toNat_le
  have hresult := s.result.isLt
  have hzero (n : Nat) : (0 : BitVec n).toNat = 0 := BitVec.toNat_zero
  exact ⟨getLsbD_of_div_mod (by omega), getLsbD_of_div_mod (by omega), getLsbD_of_div_mod (by omega),
    getLsbD_of_div_mod (by omega), extractLsb'_of_div_mod (by rw [hzero]; omega), extractLsb'_of_div_mod (by omega),
    extractLsb'_of_div_mod (by rw [hzero]; omega)⟩

/-- Write-1-to-clear, bit by bit. -/
theorem ackStatus_eq (v : Word) (s : State) : ackStatus v s =
    { s with done := if v.getLsbD 1 then false else s.done, ovr := if v.getLsbD 3 then false else s.ovr } := by
  have hclear (a b : Bool) : (a && !b) = if b then false else a := by cases a <;> cases b <;> rfl
  rw [ackStatus, hclear, hclear]

/-- Settles O17: the fields of the STATUS word, and the write as `ackStatus`. -/
theorem statusWordLayout : Obligations.StatusWordLayout := by
  intro s v
  obtain ⟨hbusy, hdone, hctxv, hovr, hlow, hresult, hhigh⟩ := statusWord_fields s
  exact ⟨hbusy, hdone, hctxv, hovr, hlow, hresult, hhigh, (writeReg_status s v).trans (ackStatus_eq v s)⟩

/-! ## The reset state (10_state.md R43) -/

/-- Settles O7: RESULT and ERR are 0, no command is in flight and no context exists. -/
theorem resetStateIsLegal : Obligations.ResetStateIsLegal := by
  have hresult : State.reset.result = 0 := rfl
  have hlatch : State.reset.latch = none := rfl
  have hctxv : State.reset.ctxv = false := rfl
  have herr : State.reset.err.toNat = 0 := rfl
  refine ⟨.inl hresult, ?_, ?_, ?_, ?_⟩
  · simp [hlatch]
  · simp [State.busy, hlatch]
  · simp [hctxv]
  · simp [herr]

/-! ## What a host write does to STATUS -/

/-- The register at an aligned offset stands at that offset. -/
theorem regOffset_of_regAt {o : Nat} {r : Reg} (h4 : o % 4 = 0) (h : regAt o = some r) : regOffset r = o := by
  revert h
  fun_cases regAt o
  all_goals intro h; cases h
  all_goals simp only [regOffset]; omega

theorem writableWhileBusy_eq_false_iff (r : Reg) : writableWhileBusy r = false ↔ r ≠ .status ∧ r ≠ .ctrl := by
  cases r <;> simp [writableWhileBusy]

/-- A store writes neither CTXV nor RESULT (10_state.md R26, R28). -/
theorem storeReg_ctxv_result (r : Reg) (v : Word) (s : State) :
    (storeReg r v s).ctxv = s.ctxv ∧ (storeReg r v s).result = s.result := by
  cases r with
  | cfg0 | cfg1 | cfg2 => by_cases hc : s.ctxv = true <;> simp [storeReg, hc]
  | _ => exact ⟨rfl, rfl⟩

/-- No store ends a command in flight, and none sets DONE. -/
theorem storeReg_busy_done (r : Reg) (v : Word) (s : State) :
    (s.busy = true → (storeReg r v s).busy = true) ∧ (s.done = false → (storeReg r v s).done = false) := by
  cases r with
  | cmd => exact ⟨fun _ => rfl, fun _ => rfl⟩
  | status => exact ⟨id, fun hd => by simp [storeReg, hd]⟩
  | cfg0 | cfg1 | cfg2 => by_cases hc : s.ctxv = true <;> simp [storeReg, hc, State.busy]
  | _ => exact ⟨id, id⟩

/-- Of the stores only the one to STATUS writes OVR (10_state.md R27). -/
theorem storeReg_ovr {r : Reg} (hr : r ≠ .status) (v : Word) (s : State) : (storeReg r v s).ovr = s.ovr := by
  cases r with
  | status => exact absurd rfl hr
  | cfg0 | cfg1 | cfg2 => by_cases hc : s.ctxv = true <;> simp [storeReg, hc]
  | _ => rfl

/-- A write to the window changes neither CTXV nor RESULT. -/
theorem writeOffset_ctxv_result (o : Nat) (v : Word) (s : State) :
    (writeOffset o v s).ctxv = s.ctxv ∧ (writeOffset o v s).result = s.result := by
  rcases writeOffset_cases o v s with ⟨_, h⟩ | ⟨r, _, ⟨_, _, h⟩ | ⟨_, h⟩⟩ <;> rw [h]
  · exact ⟨rfl, rfl⟩
  · exact ⟨rfl, rfl⟩
  · exact storeReg_ctxv_result r v s

/-- A write to the window never lowers BUSY and never sets DONE. -/
theorem writeOffset_busy_done (o : Nat) (v : Word) (s : State) :
    (s.busy = true → (writeOffset o v s).busy = true) ∧ (s.done = false → (writeOffset o v s).done = false) := by
  rcases writeOffset_cases o v s with ⟨_, h⟩ | ⟨r, _, ⟨_, _, h⟩ | ⟨_, h⟩⟩ <;> rw [h]
  · exact ⟨id, id⟩
  · exact ⟨id, id⟩
  · exact storeReg_busy_done r v s

/-- OVR after a write (10_state.md R27): STATUS acknowledges it, a dropped write sets it, any other write keeps it. -/
theorem writeOffset_ovr {o : Nat} (h4 : o % 4 = 0) (v : Word) (s : State) : (writeOffset o v s).ovr =
    if o = 0x004 then s.ovr && !v.getLsbD 3
    else if s.busy = true ∧ regAt o ≠ none ∧ o ≠ 0x008 then true
    else s.ovr := by
  rcases writeOffset_cases o v s with ⟨hr, h⟩ | ⟨r, hr, ⟨hb, hw, h⟩ | ⟨hw, h⟩⟩ <;> rw [h]
  · have hne : o ≠ 0x004 := by rintro rfl; cases hr
    simp [hne, hr]
  · have hne : o ≠ 0x004 ∧ o ≠ 0x008 := by
      constructor <;> rintro rfl <;> cases hr <;> cases hw
    simp [hne, hr, hb]
  · by_cases hs : r = .status
    · subst hs
      exact (if_pos (regOffset_of_regAt h4 hr).symm).symm
    · have hne : o ≠ 0x004 := by rintro rfl; cases hr; exact hs rfl
      have hkept : ¬ (s.busy = true ∧ regAt o ≠ none ∧ o ≠ 0x008) := by
        rintro ⟨hb, _, h8⟩
        have hctrl : r ≠ .ctrl := by rintro rfl; exact h8 (regOffset_of_regAt h4 hr).symm
        have hdrop := (writableWhileBusy_eq_false_iff r).2 ⟨hs, hctrl⟩
        simp [hb, hdrop] at hw
      rw [if_neg hne, if_neg hkept, storeReg_ovr hs]

/-! ## What a completion does to CTXV (40_context.md R121, R122) -/

theorem noContextCheck_success (s : State) : noContextCheck s = .success ↔ s.ctxv = false := by
  unfold noContextCheck; split <;> simp_all

theorem contextCheck_success (s : State) : contextCheck s = .success ↔ s.ctxv = true := by
  unfold contextCheck; split <;> simp_all

theorem ctxv_mem_partsWritten (i : Instr) : Part.ctxv ∈ partsWritten i ↔ i = .init ∨ i = .destroy := by
  cases i <;> simp [partsWritten]

/-- A command that changes CTXV succeeds, and is INIT without a context and on a valid configuration, or DESTROY with
a context. -/
theorem exec_changes_ctxv {i : Instr} {s t : State} (h : exec i s = .next t) (hne : t.ctxv ≠ s.ctxv) :
    t.result = 0 ∧
    ((i = .init ∧ s.ctxv = false ∧ validate s.cfg0 s.cfg1 s.cfg2 = .success) ∨ (i = .destroy ∧ s.ctxv = true)) := by
  rcases exec_cases i s t h with ⟨hcheck, ⟨hresult, _⟩, hframe⟩ | ⟨_, rfl⟩
  · refine ⟨hresult, ?_⟩
    obtain ⟨_, _, _, _, _, _, _, hctxv, _⟩ := hframe
    have hmem : Part.ctxv ∈ partsWritten i := by
      by_contra hn; exact hne (hctxv hn)
    rcases (ctxv_mem_partsWritten i).1 hmem with rfl | rfl
    · obtain ⟨hno, hvalid⟩ := (andThen_eq_success _ _).1 hcheck
      exact .inl ⟨rfl, (noContextCheck_success s).1 hno, hvalid⟩
    · exact .inr ⟨rfl, (contextCheck_success s).1 hcheck⟩
  · exact absurd rfl hne

/-- A completion that changes CTXV is that of the INIT or the DESTROY word (`exec_changes_ctxv`); an illegal word keeps
it. -/
theorem runWord_changes_ctxv {w : Word} {s t : State} (h : runWord w s = .next t) (hne : t.ctxv ≠ s.ctxv) :
    t.result = 0 ∧
    ((w = encode .init ∧ s.ctxv = false ∧ validate s.cfg0 s.cfg1 s.cfg2 = .success) ∨
      (w = encode .destroy ∧ s.ctxv = true)) := by
  rcases runWord_cases w s t h with ⟨i, hi, hexec⟩ | rfl
  · obtain ⟨hresult, ⟨rfl, hrest⟩ | ⟨rfl, hrest⟩⟩ := exec_changes_ctxv hexec hne
    · exact ⟨hresult, .inl ⟨eq_encode_of_decodeWord hi, hrest⟩⟩
    · exact ⟨hresult, .inr ⟨eq_encode_of_decodeWord hi, hrest⟩⟩
  · exact absurd rfl hne

/-! ## What one step does to the BCU

The host's script and the unit's own steps reach the registers in four ways only. -/

/-- What happens to the BCU in a step from `s` to a next state. -/
inductive StepEvent (s : State) : State → Prop where
  /-- A read, a unit step that only counts or is idle, or WAIT with BUSY = 0: no register changes, and the same word
  stays in flight. -/
  | quiet (l : Option InFlight) (host : List HostOp) (rdata : List Word)
      (hword : l.map InFlight.word = s.latch.map InFlight.word) :
      StepEvent s { s with latch := l, host := host, rdata := rdata }
  /-- An accepted write to the window. -/
  | write (a : BusAddr) (v : Word) (rest : List HostOp) (o : Nat) (hhost : s.host = .write .word a v :: rest)
      (ho : windowOffset a = some o) (h4 : o % 4 = 0) : StepEvent s (writeOffset o v (s.setHost rest))
  /-- The completion of the word in flight. -/
  | completion (t : State) (f : InFlight) (host : List HostOp) (hlatch : s.latch = some f)
      (hrun : runWord f.word (s.setHost host) = .next t) : StepEvent s t
  /-- The platform's reset input. -/
  | reset (rest : List HostOp) (hhost : s.host = .hardReset :: rest) : StepEvent s (hardReset (s.setHost rest))

/-- A unit step, with whatever script the host is left with, is quiet or completes. -/
theorem stepEvent_of_unitStep {s t : State} {host : List HostOp} (h : unitStep (s.setHost host) = .next t) :
    StepEvent s t := by
  rcases unitStep_cases _ _ h with ⟨_, rfl⟩ | ⟨f, hlatch, ⟨_, hrun⟩ | ⟨_, rfl⟩⟩
  · exact .quiet s.latch host s.rdata rfl
  · exact .completion t f host hlatch hrun
  · rw [setHost_latch] at hlatch
    exact .quiet (some ⟨f.word, f.remaining - 1⟩) host s.rdata (by rw [hlatch]; rfl)

/-- Every step that answers a next state is one of the four events. -/
theorem stepEvent_of_step {s t : State} (h : step s = .next t) : StepEvent s t := by
  rcases step_cases s t h with ⟨_, hunit⟩ | ⟨e, rest, hhost, hcases⟩
  · exact stepEvent_of_unitStep (host := s.host) hunit
  · rcases hcases with ⟨a, o, rfl, _, _, rfl⟩ | ⟨a, o, v, rfl, ho, h4, rfl⟩ | ⟨rfl, hunit⟩ | ⟨rfl, hwait⟩ | ⟨rfl, rfl⟩
    · exact .quiet s.latch rest (readOffset s o :: s.rdata) rfl
    · exact .write a v rest o hhost ho h4
    · exact stepEvent_of_unitStep hunit
    · rcases waitStep_cases rest s t hwait with ⟨_, rfl⟩ | ⟨f, hlatch, hrun⟩
      · exact .quiet s.latch rest (readReg s .status :: s.rdata) rfl
      · exact .completion t f s.host hlatch hrun
    · exact .reset rest hhost

/-- With a write in front of the script the step is that write. -/
theorem step_of_write {s t : State} {a : BusAddr} {v : Word} {rest : List HostOp} {o : Nat}
    (hhost : s.host = .write .word a v :: rest) (ho : windowOffset a = some o) (h : step s = .next t) :
    o % 4 = 0 ∧ t = writeOffset o v (s.setHost rest) := by
  rw [step, hhost] at h
  obtain ⟨o', ho', _, h4, rfl⟩ := access_cases _ _ _ _ h
  cases ho.symm.trans ho'
  exact ⟨h4, rfl⟩

/-- With the reset input in front of the script the step is hardware reset. -/
theorem step_of_hardReset {s t : State} {rest : List HostOp} (hhost : s.host = .hardReset :: rest)
    (h : step s = .next t) : t = hardReset (s.setHost rest) := by
  rw [step, hhost] at h
  cases h; rfl

/-! ## The statements over every step -/

/-- Settles O24, by the four events of a step: only a completion and hardware reset touch BUSY, DONE and RESULT this
way. -/
theorem statusChangesOnlyAtCompletion : Obligations.StatusChangesOnlyAtCompletion := by
  intro s t hstep
  cases stepEvent_of_step hstep with
  | quiet l host rdata hword =>
    have hbusy : l.isSome = s.busy := by simpa [State.busy] using congrArg Option.isSome hword
    refine ⟨fun hb hf => ?_, fun hd hd' => ?_, fun hr => absurd rfl hr⟩
    · nomatch (hbusy.trans hb).symm.trans hf
    · nomatch hd.symm.trans hd'
  | write a v rest o _ _ _ =>
    obtain ⟨hbusy, hdone⟩ := writeOffset_busy_done o v (s.setHost rest)
    obtain ⟨_, hresult⟩ := writeOffset_ctxv_result o v (s.setHost rest)
    refine ⟨fun hb hf => ?_, fun hd hd' => ?_, fun hr => absurd hresult hr⟩
    · nomatch (hbusy hb).symm.trans hf
    · nomatch (hdone hd).symm.trans hd'
  | completion _ f host hlatch hrun =>
    obtain ⟨hempty, hdone, _⟩ := runWord_frame _ _ _ hrun
    have hb : s.busy = true := by rw [State.busy, hlatch]; rfl
    have hf : t.busy = false := by rw [State.busy, hempty]; rfl
    exact ⟨fun _ _ => .inl hdone, fun _ _ => ⟨hb, hf⟩, fun _ => .inl ⟨hb, hf, hdone⟩⟩
  | reset rest hhost =>
    exact ⟨fun _ _ => .inr ⟨rest, hhost⟩, fun _ hd => (nomatch hd), fun _ => .inr ⟨rest, hhost⟩⟩

/-- A flag that keeps its value neither rises nor falls. -/
theorem no_edge_of_eq {a b : Bool} {P Q : Prop} (h : b = a) :
    (a = false → b = true → P) ∧ (a = true → b = false → Q) :=
  ⟨fun ha hb => (nomatch ha.symm.trans (h.symm.trans hb)), fun ha hb => (nomatch ha.symm.trans (h.symm.trans hb))⟩

/-- Settles O25: CTXV changes only where a completion changes it (`runWord_changes_ctxv`) or by hardware reset. -/
theorem contextChangesOnlyByItsCommands : Obligations.ContextChangesOnlyByItsCommands := by
  intro s t hstep
  cases stepEvent_of_step hstep with
  | quiet => exact no_edge_of_eq rfl
  | write a v rest o _ _ _ => exact no_edge_of_eq (writeOffset_ctxv_result o v (s.setHost rest)).1
  | completion _ f host hlatch hrun =>
    by_cases hkept : t.ctxv = s.ctxv
    · exact no_edge_of_eq hkept
    · rw [hlatch, Option.map_some]
      obtain ⟨hresult, ⟨hw, hno, hvalid⟩ | ⟨hw, hctx⟩⟩ := runWord_changes_ctxv hrun hkept
      · exact ⟨fun _ _ => ⟨congrArg some hw, hresult, hvalid⟩, fun h1 _ => (nomatch h1.symm.trans hno)⟩
      · exact ⟨fun h0 _ => (nomatch h0.symm.trans hctx), fun _ _ => .inl ⟨congrArg some hw, hresult⟩⟩
  | reset rest hhost => exact ⟨fun _ h1 => (nomatch h1), fun _ _ => .inr ⟨rest, hhost⟩⟩

/-- A step that changes OVR is a write or hardware reset. -/
theorem step_changes_ovr {s t : State} (hstep : step s = .next t) (hne : t.ovr ≠ s.ovr) :
    (∃ a v rest o, s.host = .write .word a v :: rest ∧ windowOffset a = some o) ∨
    ∃ rest, s.host = .hardReset :: rest := by
  cases stepEvent_of_step hstep with
  | quiet => exact absurd rfl hne
  | write a v rest o hhost ho _ => exact .inl ⟨a, v, rest, o, hhost, ho⟩
  | completion _ f host _ hrun =>
    obtain ⟨_, _, hovr, _⟩ := runWord_frame _ _ _ hrun
    exact absurd hovr hne
  | reset rest hhost => exact .inr ⟨rest, hhost⟩

/-- OVR after a step that writes at offset `o`, by `writeOffset_ovr`. -/
theorem step_of_write_ovr {s t : State} {a : BusAddr} {v : Word} {rest : List HostOp} {o : Nat}
    (hhost : s.host = .write .word a v :: rest) (ho : windowOffset a = some o) (h : step s = .next t) : t.ovr =
      if o = 0x004 then s.ovr && !v.getLsbD 3
      else if s.busy = true ∧ regAt o ≠ none ∧ o ≠ 0x008 then true
      else s.ovr := by
  obtain ⟨h4, rfl⟩ := step_of_write hhost ho h
  exact writeOffset_ovr h4 v (s.setHost rest)

theorem step_of_hardReset_ovr {s t : State} {rest : List HostOp} (hhost : s.host = .hardReset :: rest)
    (h : step s = .next t) : t.ovr = false := by
  rw [step_of_hardReset hhost h]; rfl

/-- Settles O27: OVR changes only by a write or hardware reset (`step_changes_ovr`), and what a write leaves in it is
`step_of_write_ovr`. -/
theorem overrunOnlyByDroppedWrite : Obligations.OverrunOnlyByDroppedWrite := by
  intro s t hstep
  refine ⟨fun h0 h1 => ?rises, fun h1 h0 => ?falls, fun a v rest o hhost ho => ?byWrite,
    fun rest hhost => step_of_hardReset_ovr hhost hstep⟩
  case rises =>
    rcases step_changes_ovr hstep (by simp [h0, h1]) with ⟨a, v, rest, o, hhost, ho⟩ | ⟨rest, hhost⟩
    · have hovr := step_of_write_ovr hhost ho hstep
      rw [h1, h0, Bool.false_and] at hovr
      split at hovr
      · nomatch hovr
      · next hstatus =>
        split at hovr
        · next hdrop =>
          obtain ⟨hbusy, hreg, hctrl⟩ := hdrop
          exact ⟨hbusy, a, v, rest, o, hhost, ho, hreg, hstatus, hctrl⟩
        · nomatch hovr
    · nomatch h1.symm.trans (step_of_hardReset_ovr hhost hstep)
  case falls =>
    rcases step_changes_ovr hstep (by simp [h0, h1]) with ⟨a, v, rest, o, hhost, ho⟩ | ⟨rest, hhost⟩
    · have hovr := step_of_write_ovr hhost ho hstep
      rw [h0, h1, Bool.true_and] at hovr
      split at hovr
      · next hstatus =>
        subst hstatus
        exact .inr ⟨a, v, rest, hhost, ho, by simpa using hovr⟩
      · split at hovr <;> nomatch hovr
    · exact .inl ⟨rest, hhost⟩
  case byWrite =>
    rw [step_of_write_ovr hhost ho hstep]
    refine ⟨fun hbusy hreg hstatus hctrl => ?_, fun hstatus hbit => ?_⟩
    · rw [if_neg hstatus, if_pos ⟨hbusy, hreg, hctrl⟩]
    · rw [if_pos hstatus, hbit, Bool.not_true, Bool.and_false]

end Sys2Proof.Machine
end

section
/-! Proofs about the register window (20_memory.md): byte order, the map, what an access answers, which writes reach a
register, and the statements on them. -/

namespace Sys2Proof.Machine

/-! ## A word and its four bytes (20_memory.md R52) -/

theorem byteOfWord_eq_extract (w : Word) (j : Nat) : byteOfWord w j = w.extractLsb' (8 * j) 8 := by
  apply BitVec.eq_of_toNat_eq
  rw [byteOfWord, toNat_extract, BitVec.toNat_ofNat]

theorem ofNat_digit_eq_byteOfWord (w : Word) (j : Nat) : BitVec.ofNat 8 (digit 8 w.toNat j) = byteOfWord w j := by
  rw [byteOfWord_eq_extract, digit_eq_extract, BitVec.ofNat_toNat, BitVec.setWidth_eq]

/-- The bytes of a word made of four bytes are those bytes. -/
theorem byteOfWord_wordOfBytes (b0 b1 b2 b3 : Byte) :
    byteOfWord (wordOfBytes b0 b1 b2 b3) 0 = b0 ∧ byteOfWord (wordOfBytes b0 b1 b2 b3) 1 = b1 ∧
    byteOfWord (wordOfBytes b0 b1 b2 b3) 2 = b2 ∧ byteOfWord (wordOfBytes b0 b1 b2 b3) 3 = b3 := by
  simp only [byteOfWord_eq_extract]
  refine ⟨BitVec.extractLsb'_append_eq_right, ?_, ?_, ?_⟩
  · calc (b3 ++ b2 ++ b1 ++ b0).extractLsb' 8 8
      _ = (b3 ++ b2 ++ b1).extractLsb' 0 8 := BitVec.extractLsb'_append_eq_of_le (by decide)
      _ = b1 := BitVec.extractLsb'_append_eq_right
  · calc (b3 ++ b2 ++ b1 ++ b0).extractLsb' 16 8
      _ = (b3 ++ b2 ++ b1).extractLsb' 8 8 := BitVec.extractLsb'_append_eq_of_le (by decide)
      _ = (b3 ++ b2).extractLsb' 0 8 := BitVec.extractLsb'_append_eq_of_le (by decide)
      _ = b2 := BitVec.extractLsb'_append_eq_right
  · calc (b3 ++ b2 ++ b1 ++ b0).extractLsb' 24 8
      _ = (b3 ++ b2 ++ b1).extractLsb' 16 8 := BitVec.extractLsb'_append_eq_of_le (by decide)
      _ = (b3 ++ b2).extractLsb' 8 8 := BitVec.extractLsb'_append_eq_of_le (by decide)
      _ = b3 := BitVec.extractLsb'_append_eq_left

/-- A word is made of its four bytes. -/
theorem wordOfBytes_byteOfWord (w : Word) :
    wordOfBytes (byteOfWord w 0) (byteOfWord w 1) (byteOfWord w 2) (byteOfWord w 3) = w := by
  have happend (lo n : Nat) : w.extractLsb' (lo + 8) n ++ w.extractLsb' lo 8 = w.extractLsb' lo (n + 8) :=
    BitVec.extractLsb'_append_extractLsb'_eq_extractLsb' rfl
  have h32 : w.extractLsb' 24 8 ++ w.extractLsb' 16 8 = w.extractLsb' 16 16 := happend 16 8
  have h21 : w.extractLsb' 16 16 ++ w.extractLsb' 8 8 = w.extractLsb' 8 24 := happend 8 16
  simp only [byteOfWord_eq_extract, wordOfBytes, Nat.reduceMul]
  rw [h32, h21]
  exact (happend 0 24).trans BitVec.extractLsb'_eq_self

/-! ## A command and its four bytes (30_encoding.md R73, R86) -/

/-- Each of the 21 words of 30_encoding.md R73 decodes to its command. -/
theorem decodeWord_encode (i : Instr) : decodeWord (encode i) = .ok i := by
  cases i <;> rfl

theorem decodeBytes_of_decodeWord {b0 b1 b2 b3 : Byte} {i : Instr} (h : decodeWord (wordOfBytes b0 b1 b2 b3) = .ok i)
    (rest : List Byte) : decodeBytes (b0 :: b1 :: b2 :: b3 :: rest) = .ok (i, rest) := by
  rw [decodeBytes, h]

/-- A byte string that decodes has four bytes in front whose word is the command's. -/
theorem decodeBytes_eq_ok {bs : List Byte} {i : Instr} {rest : List Byte} (h : decodeBytes bs = .ok (i, rest)) :
    ∃ b0 b1 b2 b3, bs = b0 :: b1 :: b2 :: b3 :: rest ∧ decodeWord (wordOfBytes b0 b1 b2 b3) = .ok i := by
  unfold decodeBytes at h
  split at h
  · next b0 b1 b2 b3 tail =>
    split at h
    · next hi => cases h; exact ⟨b0, b1, b2, b3, rfl, hi⟩
    · cases h
  all_goals cases h

/-- Settles O2: the bytes make up the word, and only the command's own word decodes to it. -/
theorem commandBytesRoundTrip : Obligations.CommandBytesRoundTrip := by
  refine ⟨fun i rest => ?_, fun bs i rest h => ?_⟩
  · apply decodeBytes_of_decodeWord
    rw [wordOfBytes_byteOfWord, decodeWord_encode]
  · obtain ⟨b0, b1, b2, b3, rfl, hi⟩ := decodeBytes_eq_ok h
    obtain ⟨h0, h1, h2, h3⟩ := byteOfWord_wordOfBytes b0 b1 b2 b3
    rw [encodeBytes, ← eq_encode_of_decodeWord hi, h0, h1, h2, h3]
    rfl

/-! ## The map and the base (20_memory.md R50) -/

theorem regOffset_aligned_lt (r : Reg) : regOffset r % 4 = 0 ∧ regOffset r < 256 := by
  cases r with
  | tile p | blockWord k | sel k | out p => simp only [regOffset]; omega
  | _ => decide

/-- The reserved offsets (20_memory.md R50, R56). -/
theorem regAt_eq_none_iff {o : Nat} (hlt : o < 256) (h4 : o % 4 = 0) : regAt o = none ↔
    o = 0x00C ∨ (0x01C ≤ o ∧ o ≤ 0x03C) ∨ o = 0x094 ∨ (0x0AC ≤ o ∧ o ≤ 0x0BC) := by
  fun_cases regAt o
  all_goals simp only [reduceCtorEq, false_iff, true_iff]
  all_goals omega

theorem windowOffset_window {o : Nat} (h : o < 256) : windowOffset (.window o) = some o := by
  simp [windowOffset, offsetInWindow, h]

theorem windowOffset_absolute_iff (a o : Nat) :
    windowOffset (.absolute a) = some o ↔ o < 256 ∧ a = Config.bcuBase + o := by
  simp only [windowOffset, offsetInWindow, decide_eq_true_eq, Option.ite_none_right_eq_some, Option.some.injEq]
  omega

/-- Settles O9: every register by `regAt_regOffset`, the reserved offsets by `regAt_eq_none_iff`. -/
theorem windowMapAndBase : Obligations.WindowMapAndBase := by
  refine ⟨fun r => ⟨regAt_regOffset r, regOffset_aligned_lt r⟩, fun o => regAt_eq_none_iff, regAt_regOffset .cmd,
    regAt_regOffset .status, regAt_regOffset .ctrl, regAt_regOffset .cfg0, regAt_regOffset .cfg1, regAt_regOffset .cfg2,
    fun p => regAt_regOffset (.tile p), fun k => regAt_regOffset (.blockWord k), regAt_regOffset .endp,
    fun k => regAt_regOffset (.sel k), regAt_regOffset .err, fun p => regAt_regOffset (.out p), ?_,
    windowOffset_absolute_iff⟩
  exact Nat.mul_mod_right 256 Config.bcuBaseIndex

/-! ## What an access in front of the script answers (20_memory.md R55, R57, R59) -/

theorem access_accepted {a : BusAddr} {o : Nat} (ho : windowOffset a = some o) (h4 : o % 4 = 0) (f : Nat → State) :
    access .word a f = .next (f o) := by
  simp [access, ho, acceptedAccess, h4]

theorem access_rejected {w : Width} {a : BusAddr} {o : Nat} (ho : windowOffset a = some o)
    (hbad : w ≠ .word ∨ o % 4 ≠ 0) (f : Nat → State) : access w a f = .fault .busError := by
  have hnot : acceptedAccess w o = false := by
    simpa only [acceptedAccess, Bool.and_eq_false_iff, decide_eq_false_iff_not] using hbad
  simp [access, ho, hnot]

theorem step_of_event {s : State} {e : HostOp} {rest : List HostOp} (h : s.host = e :: rest) :
    step s = eventStep e rest s := by
  rw [step, h]

theorem step_of_accepted_read {s : State} {a : BusAddr} {rest : List HostOp} {o : Nat}
    (h : s.host = .read .word a :: rest) (ho : windowOffset a = some o) (h4 : o % 4 = 0) :
    step s = .next ((s.setHost rest).pushRead (readOffset s o)) :=
  (step_of_event h).trans (access_accepted ho h4 _)

theorem step_of_accepted_write {s : State} {a : BusAddr} {v : Word} {rest : List HostOp} {o : Nat}
    (h : s.host = .write .word a v :: rest) (ho : windowOffset a = some o) (h4 : o % 4 = 0) :
    step s = .next (writeOffset o v (s.setHost rest)) :=
  (step_of_event h).trans (access_accepted ho h4 _)

/-- Settles O10: `access_rejected` and `access_accepted`, for both kinds of access. -/
theorem badAccessFaults : Obligations.BadAccessFaults := by
  intro s rest w a o v ho
  refine ⟨fun hbad => ⟨fun h => ?_, fun h => ?_⟩, fun hw h4 => ?_⟩
  · exact (step_of_event h).trans (access_rejected ho hbad _)
  · exact (step_of_event h).trans (access_rejected ho hbad _)
  · subst hw
    exact ⟨fun h => ⟨_, step_of_accepted_read h ho h4⟩, fun h => ⟨_, step_of_accepted_write h ho h4⟩⟩

/-- Settles O12: the two accepted accesses at an offset of the window. -/
theorem hostAccessStep : Obligations.HostAccessStep := fun _ _ _ _ hlt h4 =>
  ⟨fun h => step_of_accepted_read h (windowOffset_window hlt) h4,
    fun h => step_of_accepted_write h (windowOffset_window hlt) h4⟩

/-! ## A script of accepted accesses never stops (60_exceptions.md R271) -/

theorem acceptedInWindow_iff (w : Width) (o : Nat) :
    (offsetInWindow o && acceptedAccess w o) = true ↔ o < 256 ∧ w = .word ∧ o % 4 = 0 := by
  simp [offsetInWindow, acceptedAccess]

/-- A completion always answers, and leaves the script. -/
theorem runWord_answers_host (w : Word) (s : State) : ∃ t, runWord w s = .next t ∧ t.host = s.host := by
  obtain ⟨t, ht⟩ := runWord_answers w s
  obtain ⟨_, _, _, _, _, _, _, hhost, _⟩ := runWord_frame w s t ht
  exact ⟨t, ht, hhost⟩

/-- A unit step always answers, and leaves the script. -/
theorem unitStep_answers (s : State) : ∃ t, unitStep s = .next t ∧ t.host = s.host := by
  unfold unitStep
  split
  · exact ⟨s, rfl, rfl⟩
  · next f _ =>
    split
    · exact runWord_answers_host f.word s
    · exact ⟨_, rfl, rfl⟩

/-- WAIT always answers; while BUSY = 1 it stays in front of the script. -/
theorem waitStep_answers (rest : List HostOp) (s : State) :
    ∃ t, waitStep rest s = .next t ∧ (t.host = s.host ∨ t.host = rest) := by
  unfold waitStep
  split
  · exact ⟨_, rfl, .inr rfl⟩
  · next f _ =>
    obtain ⟨t, ht, hhost⟩ := runWord_answers_host f.word s
    exact ⟨t, ht, .inl hhost⟩

/-- A well-formed event always answers, and leaves the script or drops its first event. -/
theorem eventStep_answers {e : HostOp} (hwf : e.wellFormed = true) (rest : List HostOp) (s : State) :
    ∃ t, eventStep e rest s = .next t ∧ (t.host = s.host ∨ t.host = rest) := by
  cases e with
  | read w a =>
    cases a with
    | window o =>
      obtain ⟨hlt, rfl, h4⟩ := (acceptedInWindow_iff w o).1 hwf
      exact ⟨_, access_word o _ hlt h4, .inr rfl⟩
    | absolute => cases hwf
  | write w a v =>
    cases a with
    | window o =>
      obtain ⟨hlt, rfl, h4⟩ := (acceptedInWindow_iff w o).1 hwf
      exact ⟨_, access_word o _ hlt h4, .inr (writeOffset_frame o v (s.setHost rest)).1⟩
    | absolute => cases hwf
  | tick =>
    obtain ⟨t, ht, hhost⟩ := unitStep_answers (s.setHost rest)
    exact ⟨t, ht, .inr hhost⟩
  | wait => exact waitStep_answers rest s
  | hardReset => exact ⟨_, rfl, .inr rfl⟩

/-- Settles O11: the next event answers (`eventStep_answers`), and what is left of the script was in it before. -/
theorem wellBehavedHostNeverStops : Obligations.WellBehavedHostNeverStops := by
  intro s hwell
  cases hscript : s.host with
  | nil =>
    obtain ⟨t, ht, hhost⟩ := unitStep_answers s
    refine ⟨t, by rw [step, hscript]; exact ht, ?_⟩
    rwa [WellBehavedHost, hhost]
  | cons e rest =>
    have hall : ∀ e' ∈ e :: rest, e'.wellFormed = true := hscript ▸ hwell
    obtain ⟨t, ht, hhost⟩ := eventStep_answers (hall e List.mem_cons_self) rest s
    refine ⟨t, (step_of_event hscript).trans ht, ?_⟩
    rcases hhost with hhost | hhost <;> rw [WellBehavedHost, hhost]
    · exact hwell
    · exact fun e' he' => hall e' (List.mem_cons_of_mem e he')

/-! ## Writes by offset (20_memory.md R56, R58, R65) -/

theorem writeOffset_status (v : Word) (s : State) : writeOffset 0x004 v s = ackStatus v s :=
  writeReg_status s v

theorem writeOffset_ctrl (v : Word) (s : State) : writeOffset 0x008 v s = setCtrl v s :=
  writeReg_ctrl s v

/-- While BUSY = 1 a write is ignored, dropped, or one to STATUS or CTRL. -/
theorem writeOffset_busy_cases {s : State} (hb : s.busy = true) (o : Nat) (v : Word) :
    writeOffset o v s = s ∨ writeOffset o v s = dropWrite s ∨ writeOffset o v s = ackStatus v s ∨
    writeOffset o v s = setCtrl v s := by
  rcases writeOffset_cases o v s with ⟨_, h⟩ | ⟨r, _, ⟨_, _, h⟩ | ⟨hw, h⟩⟩
  · exact .inl h
  · exact .inr (.inl h)
  · have hr : r = .status ∨ r = .ctrl := by
      by_contra hnot
      have hdrop := (writableWhileBusy_eq_false_iff r).2 (not_or.1 hnot)
      simp [hb, hdrop] at hw
    rcases hr with rfl | rfl
    · exact .inr (.inr (.inl h))
    · exact .inr (.inr (.inr h))

/-- Settles O14: `writeReg_busy` for the registers a drop protects, and STATUS and CTRL by their own writes. -/
theorem writesWhileBusyAreDropped : Obligations.WritesWhileBusyAreDropped := by
  intro s o v hbusy hlt h4
  refine ⟨fun hstatus hctrl hreg => ?_, writeOffset_reserved s o v, writeOffset_status v s, writeOffset_ctrl v s,
    fun w rest hhost hw => ?_⟩
  · obtain ⟨r, hr⟩ := Option.ne_none_iff_exists'.1 hreg
    have hoffset := regOffset_of_regAt h4 hr
    have hdrop : writableWhileBusy r = false := by
      refine (writableWhileBusy_eq_false_iff r).2 ⟨?_, ?_⟩ <;> rintro rfl
      · exact hstatus hoffset.symm
      · exact hctrl hoffset.symm
    rw [writeOffset_of_reg s o v r hr, writeReg_busy s r v hbusy hdrop]
    rfl
  · subst hw
    exact step_of_accepted_read hhost (windowOffset_window hlt) h4

/-- A write in front of the script to a register that would ignore it with BUSY = 0: it does so, and with BUSY = 1 it
is dropped. -/
theorem step_of_ignored_write {s : State} {v : Word} {rest : List HostOp} {o : Nat} {r : Reg}
    (hhost : s.host = .write .word (.window o) v :: rest) (hlt : o < 256) (h4 : o % 4 = 0) (hr : regAt o = some r)
    (hdrop : writableWhileBusy r = false) (hstore : storeReg r v (s.setHost rest) = s.setHost rest) :
    (s.busy = false → step s = .next { s with host := rest }) ∧
    (s.busy = true → step s = .next { s with host := rest, ovr := true }) := by
  have hstep := step_of_accepted_write hhost (windowOffset_window hlt) h4
  rw [writeOffset_of_reg _ o v r hr] at hstep
  refine ⟨fun hbusy => ?_, fun hbusy => ?_⟩
  · rw [hstep, writeReg_idle (s.setHost rest) r v hbusy, hstore]; rfl
  · rw [hstep, writeReg_busy (s.setHost rest) r v hbusy hdrop]; rfl

/-- ERR and OUT ignore writes (20_memory.md R58). -/
theorem regAt_readOnly {o : Nat} (h : o = 0x0A8 ∨ (0x0C0 ≤ o ∧ o < 0x100 ∧ o % 4 = 0)) :
    ∃ r, regAt o = some r ∧ (r = .err ∨ ∃ p, r = .out p) := by
  rcases h with rfl | ⟨hlo, hhi, h4⟩
  · exact ⟨.err, rfl, .inl rfl⟩
  · refine ⟨.out ⟨(o - 0x0C0) / 4, by omega⟩, ?_, .inr ⟨_, rfl⟩⟩
    have ho : o = regOffset (.out ⟨(o - 0x0C0) / 4, by omega⟩) := by simp only [regOffset]; omega
    exact (congrArg regAt ho).trans (regAt_regOffset _)

/-- CFG0..CFG2 keep their values while CTXV = 1 (10_state.md R33). -/
theorem storeReg_cfg_locked {s : State} (hc : s.ctxv = true) (v : Word) :
    storeReg .cfg0 v s = s ∧ storeReg .cfg1 v s = s ∧ storeReg .cfg2 v s = s := by
  simp [storeReg, hc]

/-- Settles O15: every offset named is one of a register that ignores the write (`step_of_ignored_write`). -/
theorem readOnlyAndLockedWritesIgnored : Obligations.ReadOnlyAndLockedWritesIgnored := by
  intro s rest v
  refine ⟨fun o ho hhost => ?readOnly, fun o ho hctxv hhost => ?locked, ?status, rfl, rfl, rfl⟩
  case readOnly =>
    obtain ⟨hlt, h4⟩ : o < 256 ∧ o % 4 = 0 := by omega
    obtain ⟨r, hr, rfl | ⟨p, rfl⟩⟩ := regAt_readOnly ho
    · exact step_of_ignored_write hhost hlt h4 hr rfl rfl
    · exact step_of_ignored_write hhost hlt h4 hr rfl rfl
  case locked =>
    obtain ⟨h0, h1, h2⟩ := storeReg_cfg_locked (s := s.setHost rest) hctxv v
    rcases ho with rfl | rfl | rfl
    · exact step_of_ignored_write hhost (by decide) rfl (regAt_regOffset .cfg0) rfl h0
    · exact step_of_ignored_write hhost (by decide) rfl (regAt_regOffset .cfg1) rfl h1
    · exact step_of_ignored_write hhost (by decide) rfl (regAt_regOffset .cfg2) rfl h2
  case status =>
    rw [writeOffset_status]
    exact ⟨rfl, rfl, rfl⟩

/-- Settles O23: of the four events a completion and hardware reset end with BUSY = 0, and a write while BUSY = 1
touches DONE, OVR and IE only (`writeOffset_busy_cases`). -/
theorem inFlightCommandKeepsRegisters : Obligations.InFlightCommandKeepsRegisters := by
  intro s t hstep hbusy hstill
  cases stepEvent_of_step hstep with
  | quiet l host rdata hword => exact ⟨rfl, rfl, rfl, rfl, rfl, rfl, rfl, rfl, rfl, rfl, rfl, hword⟩
  | write a v rest o _ _ _ =>
    have hb : (s.setHost rest).busy = true := hbusy
    rcases writeOffset_busy_cases hb o v with h | h | h | h <;> rw [h]
    all_goals exact ⟨rfl, rfl, rfl, rfl, rfl, rfl, rfl, rfl, rfl, rfl, rfl, rfl⟩
  | completion _ f host hlatch hrun =>
    obtain ⟨hempty, _⟩ := runWord_frame _ _ _ hrun
    rw [State.busy, hempty] at hstill
    cases hstill
  | reset rest hhost => cases hstill

/-! ## What a register reads after a store (10_state.md R29 to R37) -/

theorem readReg_setCfg0 (v : Word) (s : State) (r : Reg) :
    readReg (s.setCfg0 v) r = if r = .cfg0 then v else readReg s r := by
  cases r <;> rfl

theorem readReg_setCfg1 (v : Word) (s : State) (r : Reg) :
    readReg (s.setCfg1 v) r = if r = .cfg1 then v else readReg s r := by
  cases r <;> rfl

theorem readReg_setCfg2 (v : Word) (s : State) (r : Reg) :
    readReg (s.setCfg2 v) r = if r = .cfg2 then v else readReg s r := by
  cases r <;> rfl

theorem readReg_setEndp (v : Word) (s : State) (r : Reg) :
    readReg (s.setEndp v) r = if r = .endp then v else readReg s r := by
  cases r <;> rfl

theorem readReg_setTile (p : Fin 16) (v : Word) (s : State) (r : Reg) :
    readReg (s.setTile (s.tile.set p v)) r = if r = .tile p then v else readReg s r := by
  cases r with
  | tile q => simp [readReg, Vector.getElem_set, Fin.ext_iff, eq_comm]
  | _ => rfl

theorem readReg_setSel (k : Fin 4) (v : Word) (s : State) (r : Reg) :
    readReg (s.setSel (s.sel.set k v)) r = if r = .sel k then v else readReg s r := by
  cases r with
  | sel q => simp [readReg, Vector.getElem_set, Fin.ext_iff, eq_comm]
  | _ => rfl

theorem blockWord_eq_wordOfBytes (b : Vector Byte 16) (k : Fin 4) :
    blockWord b k = wordOfBytes b[4 * k.val] b[4 * k.val + 1] b[4 * k.val + 2] b[4 * k.val + 3] := rfl

theorem setBlockWord_getElem (b : Vector Byte 16) (k : Fin 4) (v : Word) (i : Nat) (h : i < 16) :
    (setBlockWord b k v)[i] = if i / 4 = k.val then byteOfWord v (i % 4) else b[i] := by
  simp [setBlockWord, ofNat_digit_eq_byteOfWord]

/-- A write to one word of the block buffer is read back there and leaves the other three. -/
theorem blockWord_setBlockWord (b : Vector Byte 16) (k q : Fin 4) (v : Word) :
    blockWord (setBlockWord b k v) q = if q = k then v else blockWord b q := by
  have hdiv (j : Nat) (hj : j < 4) : (4 * q.val + j) / 4 = q.val ∧ (4 * q.val + j) % 4 = j := by omega
  have hbyte (j : Nat) (hj : j < 4) : (setBlockWord b k v)[4 * q.val + j] =
      if q = k then byteOfWord v j else b[4 * q.val + j] := by
    rw [setBlockWord_getElem, (hdiv j hj).1, (hdiv j hj).2]
    simp only [Fin.ext_iff]
  rw [blockWord_eq_wordOfBytes, hbyte 1 (by decide), hbyte 2 (by decide), hbyte 3 (by decide)]
  have h0 := hbyte 0 (by decide)
  simp only [Nat.add_zero] at h0
  rw [h0]
  split
  · exact wordOfBytes_byteOfWord v
  · rfl

theorem readReg_setBlock_of_ne (b : Vector Byte 16) (s : State) {r : Reg} (h : ∀ k, r ≠ .blockWord k) :
    readReg (s.setBlock b) r = readReg s r := by
  cases r with
  | blockWord k => exact absurd rfl (h k)
  | _ => rfl

theorem readReg_setBlockWord (k : Fin 4) (v : Word) (s : State) (r : Reg) :
    readReg (s.setBlock (setBlockWord s.block k v)) r = if r = .blockWord k then v else readReg s r := by
  by_cases h : ∃ q, r = .blockWord q
  · obtain ⟨q, rfl⟩ := h
    simp [readReg, blockWord_setBlockWord]
  · rw [readReg_setBlock_of_ne _ _ (not_exists.1 h), if_neg fun hk => h ⟨k, hk⟩]

/-- CTRL reads bit 0 of what was written. -/
theorem ctrlWord_setCtrl (v : Word) (s : State) : (setCtrl v s).ctrlWord = v &&& 1 := by
  apply BitVec.eq_of_toNat_eq
  have hbit : (v.getLsbD 0).toNat = v.toNat % 2 := by rw [← slice_bit]; simp [slice]
  rw [State.ctrlWord, setCtrl_ie, hbit, BitVec.toNat_ofNat, BitVec.toNat_and]
  change _ = v.toNat &&& 1
  rw [Nat.and_one_is_mod]; omega

theorem readReg_setCtrl (v : Word) (s : State) (r : Reg) :
    readReg (setCtrl v s) r = if r = .ctrl then v &&& 1 else readReg s r := by
  cases r with
  | ctrl => exact ctrlWord_setCtrl v s
  | _ => rfl

/-- CFG0..CFG2 take a write with BUSY = 0 while CTXV = 0 (10_state.md R33). -/
theorem writeReg_cfg {s : State} (hb : s.busy = false) (hc : s.ctxv = false) (v : Word) :
    writeReg .cfg0 v s = s.setCfg0 v ∧ writeReg .cfg1 v s = s.setCfg1 v ∧ writeReg .cfg2 v s = s.setCfg2 v := by
  simp [writeReg_idle s _ v hb, storeReg, hc]

/-- Settles O16: each register's store by what `readReg` answers on it. -/
theorem idleWriteThenRead : Obligations.IdleWriteThenRead := by
  intro s v hb
  refine ⟨fun r r' hr => ?_, fun r' => ?_, writeReg_ctrl s v⟩
  · rcases hr with ⟨hr, hc⟩ | ⟨p, rfl⟩ | ⟨k, rfl⟩ | rfl | ⟨k, rfl⟩
    · obtain ⟨h0, h1, h2⟩ := writeReg_cfg hb hc v
      simp only [List.mem_cons, List.not_mem_nil, or_false] at hr
      rcases hr with rfl | rfl | rfl
      · rw [h0, readReg_setCfg0]
      · rw [h1, readReg_setCfg1]
      · rw [h2, readReg_setCfg2]
    · rw [writeReg_idle s _ v hb]; exact readReg_setTile p v s r'
    · rw [writeReg_idle s _ v hb]; exact readReg_setBlockWord k v s r'
    · rw [writeReg_idle s _ v hb]; exact readReg_setEndp v s r'
    · rw [writeReg_idle s _ v hb]; exact readReg_setSel k v s r'
  · rw [writeReg_ctrl, readReg_setCtrl]

/-! ## Reserved offsets and bits (20_memory.md R56) -/

theorem ctrlWord_reserved (s : State) : s.ctrlWord.extractLsb' 1 31 = 0 := by
  apply extractLsb'_of_div_mod
  have hie := s.ie.toNat_le
  rw [State.ctrlWord, BitVec.toNat_ofNat]
  change _ = 0
  omega

/-- A reserved bit of CFG0 or CFG1 fails the first check of Validate() (40_context.md R124). -/
theorem validate_reservedBits {cfg0 cfg1 : Word}
    (h : cfg0.getLsbD 11 = true ∨ cfg0.extractLsb' 20 12 ≠ 0 ∨ cfg1.extractLsb' 15 17 ≠ 0) (cfg2 : Word) :
    validate cfg0 cfg1 cfg2 = .badParameter := by
  have hne {n : Nat} {x : BitVec n} (hx : x ≠ 0) : x.toNat ≠ 0 := fun hz => hx (BitVec.eq_of_toNat_eq hz)
  refine if_pos ?_
  rw [slice_bit, slice_eq_extract, slice_eq_extract]
  rcases h with h | h | h
  · exact .inl (by simp [h])
  · exact .inr (.inl (hne h))
  · exact .inr (.inr (hne h))

theorem regAt_reserved {o : Nat} (h : o = 0x00C ∨ (0x01C ≤ o ∧ o ≤ 0x03C ∧ o % 4 = 0) ∨ o = 0x094 ∨
    (0x0AC ≤ o ∧ o ≤ 0x0BC ∧ o % 4 = 0)) : o < 256 ∧ o % 4 = 0 ∧ regAt o = none := by
  have hlt : o < 256 := by omega
  have h4 : o % 4 = 0 := by omega
  exact ⟨hlt, h4, (regAt_eq_none_iff hlt h4).2 (by omega)⟩

/-- Settles O13: reserved offsets by the map, reserved bits of STATUS and CTRL by their words, those of CFG0 and CFG1
by Validate(). -/
theorem reservedOffsetsAndBits : Obligations.ReservedOffsetsAndBits := by
  refine ⟨fun s rest o v ho => ?offsets, fun s v => ?statusCtrl, fun s v hb hc => ?cfg, fun s hc hbits => ?init⟩
  case offsets =>
    obtain ⟨hlt, h4, hnone⟩ := regAt_reserved ho
    refine ⟨fun hhost => ?_, fun hhost => ?_⟩
    · rw [step_of_accepted_read hhost (windowOffset_window hlt) h4, readOffset_reserved s o hnone]; rfl
    · rw [step_of_accepted_write hhost (windowOffset_window hlt) h4, writeOffset_reserved _ o v hnone]; rfl
  case statusCtrl =>
    obtain ⟨_, _, _, _, hlow, _, hhigh⟩ := statusWord_fields (writeOffset 0x004 v s)
    exact ⟨hlow, hhigh, ctrlWord_reserved _⟩
  case cfg =>
    obtain ⟨h0, h1, _⟩ := writeReg_cfg hb hc v
    exact ⟨congrArg State.cfg0 h0, congrArg State.cfg1 h1⟩
  case init =>
    have hcheck : checkOf .init s = .badParameter := by
      rw [checkOf, (noContextCheck_success s).2 hc, andThen_success, validate_reservedBits hbits]
    rw [FailsWith, exec_eq, hcheck]
    rfl

/-! ## Byte lanes (20_memory.md R52 to R54) -/

theorem windowByte_eq_byteOfWord (s : State) {o j : Nat} (h4 : o % 4 = 0) (hj : j < 4) :
    windowByte s (o + j) = byteOfWord (readOffset s o) j := by
  have hmod : (o + j) % 4 = j := by omega
  rw [windowByte, hmod, Nat.add_sub_cancel, ofNat_digit_eq_byteOfWord]

/-- The bytes at a register's offset are the bytes of what it reads. -/
theorem windowByte_reg (s : State) (r : Reg) {j : Nat} (hj : j < 4) :
    windowByte s (regOffset r + j) = byteOfWord (readReg s r) j := by
  rw [windowByte_eq_byteOfWord s (regOffset_aligned_lt r).1 hj, readOffset_of_reg s _ r (regAt_regOffset r)]

theorem channel_tilePixel_eq_byte (t : Vector Word 16) (p : Fin 16) (j : Fin 4) :
    channel (tilePixel t p) j.val = (byteOfWord t[p] j.val).toNat := by
  rw [channel_tilePixel t p j.val j.isLt, byteOfWord_eq_extract]

/-- Byte `j` of word `k` of the block buffer is BLOCK[4k + j] (10_state.md R35). -/
theorem byteOfWord_blockWord (b : Vector Byte 16) (k j : Fin 4) :
    byteOfWord (blockWord b k) j.val = b[4 * k.val + j.val] := by
  obtain ⟨h0, h1, h2, h3⟩ := byteOfWord_wordOfBytes b[4 * k.val] b[4 * k.val + 1] b[4 * k.val + 2] b[4 * k.val + 3]
  match j with
  | 0 => exact h0
  | 1 => exact h1
  | 2 => exact h2
  | 3 => exact h3

theorem windowByte_block (s : State) (i : Fin 16) : windowByte s (0x080 + i.val) = s.block[i] := by
  have hsplit : 0x080 + i.val = regOffset (.blockWord ⟨i.val / 4, by omega⟩) + i.val % 4 := by
    simp only [regOffset]; omega
  have hindex : 4 * (i.val / 4) + i.val % 4 = i.val := by omega
  rw [hsplit, windowByte_reg s _ (by omega)]
  refine (byteOfWord_blockWord s.block ⟨i.val / 4, by omega⟩ ⟨i.val % 4, by omega⟩).trans ?_
  simp only [hindex, Fin.getElem_fin]

/-- Settles O19: a byte of the window is a byte of what its register reads (`windowByte_reg`). -/
theorem byteLanesAreLittleEndian : Obligations.ByteLanesAreLittleEndian := by
  refine ⟨fun s o j h4 => ?_, fun s p j => ⟨?_, ?_⟩, windowByte_block, fun s k p => ?_⟩
  · rw [windowByte_eq_byteOfWord s h4 j.isLt, byteOfWord_eq_extract]
  · exact (channel_tilePixel_eq_byte s.tile p j).trans (congrArg _ (windowByte_reg s (.tile p) j.isLt).symm)
  · exact (channel_tilePixel_eq_byte s.out p j).trans (congrArg _ (windowByte_reg s (.out p) j.isLt).symm)
  · exact digit_eq_extract _ 4 _

end Sys2Proof.Machine
end

section
/-! Proofs about the encodings (30_encoding.md): the command words, the registers a command writes, the window outside
them, and the fields and tables of BC7 blocks. -/

namespace Sys2Proof.Machine

/-! ## The 21 command words (30_encoding.md R73, R74) -/

/-- The decoder and the encoder are inverse to each other. -/
theorem decodeWord_eq_ok_iff (w : Word) (i : Instr) : decodeWord w = .ok i ↔ w = encode i :=
  ⟨eq_encode_of_decodeWord, fun h => h ▸ decodeWord_encode i⟩

/-- A word that is rejected is the word of no command. -/
theorem decodeWord_ne_ok {w : Word} {r : Reject} (h : decodeWord w = .error r) (i : Instr) : decodeWord w ≠ .ok i := by
  rw [h]; nofun

/-- PACK and SELECT have no BC7 command. -/
theorem decodeWord_undefined_bc7 :
    decodeWord 0x00000410 = .error .packBc7 ∧ decodeWord 0x00000412 = .error .selectBc7 := ⟨rfl, rfl⟩

/-- Settles O1: the decoder by `decodeWord_eq_ok_iff`, the words by the table. -/
theorem commandTableExact : Obligations.CommandTableExact := by
  obtain ⟨hpack, hselect⟩ := decodeWord_undefined_bc7
  refine ⟨decodeWord_eq_ok_iff, ?_⟩
  iterate 21 refine ⟨rfl, ?_⟩
  exact ⟨decodeWord_ne_ok hpack, decodeWord_ne_ok hselect⟩

/-- The table's numbering of bits gives the word's own command. -/
theorem decodeTableWord_toNat (w : Word) : decodeTableWord 32 w.toNat = (decodeWord w).toOption := by
  have hmod : w.toNat % 2 ^ 32 = w.toNat := Nat.mod_eq_of_lt w.isLt
  simp only [decodeTableWord, hmod, w.isLt, if_true, BitVec.ofNat_toNat, BitVec.setWidth_eq, decodeBytes,
    wordOfBytes_byteOfWord]
  cases decodeWord w <;> rfl

theorem decodeTableWord_encode (i : Instr) : decodeTableWord 32 (encode i).toNat = some i := by
  rw [decodeTableWord_toNat, decodeWord_encode]; rfl

theorem decodeTableWord_rejected {w : Word} {r : Reject} (h : decodeWord w = .error r) :
    decodeTableWord 32 w.toNat = none := by
  rw [decodeTableWord_toNat, h]; rfl

/-- Bit 11 is reserved. -/
theorem decodeWord_reservedBit : decodeWord 0x00000801 = .error .reservedBits := rfl

/-- Settles O3: the eight words are those of their commands, the two others are rejected. -/
theorem tableWordsDecode : Obligations.TableWordsDecode := by
  obtain ⟨hpack, _⟩ := decodeWord_undefined_bc7
  exact ⟨decodeTableWord_encode .init, decodeTableWord_encode .destroy, decodeTableWord_encode .reset,
    decodeTableWord_encode .packBc1, decodeTableWord_encode .unpackBc4, decodeTableWord_encode .selectBc5,
    decodeTableWord_encode .encodeBc7, decodeTableWord_encode .evalBc7, decodeTableWord_rejected hpack,
    decodeTableWord_rejected decodeWord_reservedBit⟩

/-! ## What a command writes (30_encoding.md R85) -/

/-- Settles O31: a successful command stays in its parts, a failed one writes STATUS alone (`exec_cases`). -/
theorem commandsWriteOnlyTheirRegisters : Obligations.CommandsWriteOnlyTheirRegisters := by
  intro i s t h
  rcases exec_cases i s t h with ⟨_, _, hframe⟩ | ⟨_, rfl⟩
  · exact hframe
  · exact sameBut_finish _ _ _ _ (sameBut_refl _ s)

/-! ## The window outside what a command writes (20_memory.md R50, R54) -/

/-- The parts of the data registers. -/
theorem partAtByte_regOffset :
    (∀ p, partAtByte (regOffset (.tile p)) = some .tile) ∧ (∀ k, partAtByte (regOffset (.blockWord k)) = some .block) ∧
    partAtByte (regOffset .endp) = some .endp ∧ (∀ k, partAtByte (regOffset (.sel k)) = some .sel) ∧
    partAtByte (regOffset .err) = some .err ∧ ∀ p, partAtByte (regOffset (.out p)) = some .out := by
  decide

/-- The four bytes of a register belong to one part: every part begins and ends at a multiple of 4. -/
theorem partAtByte_aligned (o : Nat) : partAtByte (o - o % 4) = partAtByte o := by
  have hle (k : Nat) (hk : k % 4 = 0) : k ≤ o - o % 4 ↔ k ≤ o := by omega
  have hlt (k : Nat) (hk : k % 4 = 0) : o - o % 4 < k ↔ o < k := by omega
  simp (disch := decide) only [partAtByte, hle, hlt]

/-- A register other than STATUS whose part is kept reads as before. -/
theorem readReg_of_sameBut {ps : List Part} {s t : State} (h : SameBut ps s t) {r : Reg} (hr : r ≠ .status)
    (hkept : ∀ part, partAtByte (regOffset r) = some part → part ∉ ps) : readReg t r = readReg s r := by
  obtain ⟨_, hie, hcfg0, hcfg1, hcfg2, _, _, _, htile, hblock, hendp, hsel, herr, hout⟩ := h
  obtain ⟨ptile, pblock, pendp, psel, perr, pout⟩ := partAtByte_regOffset
  cases r with
  | cmd => rfl
  | status => exact absurd rfl hr
  | ctrl => simp only [readReg, State.ctrlWord, hie]
  | cfg0 => exact hcfg0
  | cfg1 => exact hcfg1
  | cfg2 => exact hcfg2
  | tile p => simp only [readReg, htile (hkept _ (ptile p))]
  | blockWord k => simp only [readReg, hblock (hkept _ (pblock k))]
  | endp => exact hendp (hkept _ pendp)
  | sel k => simp only [readReg, hsel (hkept _ (psel k))]
  | err => exact herr (hkept _ perr)
  | out p => simp only [readReg, hout (hkept _ (pout p))]

/-- An aligned offset other than that of STATUS whose part is kept reads as before. -/
theorem readOffset_of_sameBut {ps : List Part} {s t : State} (h : SameBut ps s t) {o : Nat} (h4 : o % 4 = 0)
    (hstatus : o ≠ 0x004) (hkept : ∀ part, partAtByte o = some part → part ∉ ps) : readOffset t o = readOffset s o := by
  cases hreg : regAt o with
  | none => rw [readOffset_reserved t o hreg, readOffset_reserved s o hreg]
  | some r =>
    obtain rfl := regOffset_of_regAt h4 hreg
    rw [readOffset_of_reg t _ r hreg, readOffset_of_reg s _ r hreg]
    exact readReg_of_sameBut h (by rintro rfl; exact hstatus rfl) hkept

/-- Settles O32: a byte is a lane of its aligned offset, which the command's frame (O31) keeps. -/
theorem windowBytesOutsideResultsKept : Obligations.WindowBytesOutsideResultsKept := by
  intro i s t o hexec _ hstatus hkept
  have hframe := commandsWriteOnlyTheirRegisters i s t hexec
  have hread : readOffset t (o - o % 4) = readOffset s (o - o % 4) :=
    readOffset_of_sameBut hframe (by omega) (by omega) (by rwa [partAtByte_aligned])
  rw [windowByte, windowByte, hread]

/-! ## The fields of a BC7 block (30_encoding.md R80, R81; 43_bc7.md R187 to R189) -/

/-- Every anchor other than pixel 0 is one of the pixels 1 to 15. -/
theorem bc7Anchors_le (r : Nat) : bc7A2 r ≤ 15 ∧ bc7A3a r ≤ 15 ∧ bc7A3b r ≤ 15 := by
  refine ⟨by unfold bc7A2; omega, by unfold bc7A3a; omega, ?_⟩
  unfold bc7A3b; split <;> omega

/-- A partition of `ns` subsets has `ns` anchors among the 16 pixels, one for each subset. -/
theorem exists_anchors {ns : Nat} (hlow : 1 ≤ ns) (hhigh : ns ≤ 3) (part : Nat) :
    ∃ anchors : List Nat, anchors.length = ns ∧ anchors.Nodup ∧ (∀ a ∈ anchors, a < 16) ∧
      ∀ p, bc7IsAnchor ns part p = decide (p ∈ anchors) := by
  obtain ⟨pos2, pos3a, pos3b⟩ := bc7Anchors_pos part
  obtain ⟨le2, le3a, le3b⟩ := bc7Anchors_le part
  have hne := bc7A3b_ne part
  obtain rfl | rfl | rfl : ns = 1 ∨ ns = 2 ∨ ns = 3 := by omega
  · exact ⟨[0], rfl, by simp, by simp, bc7IsAnchor_one part⟩
  · exact ⟨[0, bc7A2 part], rfl, by simp; omega, by simp; omega, bc7IsAnchor_two part⟩
  · exact ⟨[0, bc7A3a part, bc7A3b part], rfl, by simp; omega, by simp; omega, bc7IsAnchor_three part⟩

/-- Sixteen primary indices, those of the anchors one bit shorter. -/
theorem primaryWidths_sum {md : Bc7Mode} (hlow : 1 ≤ md.ns) (hhigh : md.ns ≤ 3) (hib : 1 ≤ md.ib) (part : Nat) :
    (primaryWidths md part).sum = md.ib * 16 - md.ns := by
  obtain ⟨anchors, hlen, hnodup, hlt, hanchor⟩ := exists_anchors hlow hhigh part
  have hall : anchors.filter (· < 16) = anchors := List.filter_eq_self.2 fun a ha => decide_eq_true (hlt a ha)
  have hsum := sum_index_widths anchors hnodup md.ib hib 16
  rw [hall, hlen] at hsum
  simpa only [primaryWidths, hanchor, decide_eq_true_eq] using hsum

/-- Sixteen secondary indices where a mode has them, that of pixel 0 one bit shorter. -/
theorem secondaryWidths_sum (md : Bc7Mode) :
    (secondaryWidths md).sum = if md.ib2 = 0 then 0 else md.ib2 * 16 - 1 := by
  unfold secondaryWidths
  split
  · rfl
  · next h => simpa using sum_index_widths [0] (by simp) md.ib2 (by omega) 16

/-- The bits of the fields after the mode bits do not depend on the partition. -/
theorem bc7Widths_sum {md : Bc7Mode} (hlow : 1 ≤ md.ns) (hhigh : md.ns ≤ 3) (hib : 1 ≤ md.ib) (part : Nat) :
    (bc7Widths md part).sum = md.pb + md.rb + md.isb + 6 * md.ns * md.cb +
      (if md.ab = 0 then 0 else 2 * md.ns) * md.ab + pbitCount md + (md.ib * 16 - md.ns) +
      if md.ib2 = 0 then 0 else md.ib2 * 16 - 1 := by
  simp only [bc7Widths, List.sum_append, List.sum_replicate, primaryWidths_sum hlow hhigh hib, secondaryWidths_sum,
    List.sum_cons, List.sum_nil, smul_eq_mul, Nat.mul_one]
  omega

/-- What the rows of the mode table (30_encoding.md R80) have in common. -/
theorem bc7Mode_bounds : ∀ m < 8, 1 ≤ (bc7Mode m).ns ∧ (bc7Mode m).ns ≤ 3 ∧ 1 ≤ (bc7Mode m).ib := by decide

theorem bc7_bits_eq_128 {m : Nat} (hm : m < 8) (part : Nat) : (m + 1) + (bc7Widths (bc7Mode m) part).sum = 128 := by
  obtain ⟨hlow, hhigh, hib⟩ := bc7Mode_bounds m hm
  rw [bc7Widths_sum hlow hhigh hib]
  revert m
  decide

/-- A partition number is below the number of subsets. -/
theorem bc7Partition_lt (r p : Nat) : bc7P2 r p < 2 ∧ bc7P3 r p < 3 := by
  constructor
  · unfold bc7P2; split_ifs <;> omega
  · unfold bc7P3; split_ifs <;> omega

/-- Pixel 0 is in subset 0 and each anchor in its own subset. -/
theorem bc7Partition_anchor (r : Nat) : bc7P2 r 0 = 0 ∧ bc7P3 r 0 = 0 ∧ bc7P2 r (bc7A2 r) = 1 ∧
    bc7P3 r (bc7A3a r) = 1 ∧ bc7P3 r (bc7A3b r) = 2 := by
  obtain ⟨pos2, pos3a, pos3b⟩ := bc7Anchors_pos r
  refine ⟨rfl, rfl, ?_, ?_, ?_⟩
  · rw [bc7P2, if_neg pos2.ne', if_pos rfl]
  · rw [bc7P3, if_neg pos3a.ne', if_pos rfl]
  · rw [bc7P3, if_neg pos3b.ne', if_neg (bc7A3b_ne r), if_pos rfl]

/-- Settles O44: the widths by `bc7Widths_sum`, the tables by how they are built. -/
theorem bc7FieldsTakeTheBlock : Obligations.Bc7FieldsTakeTheBlock := by
  refine ⟨fun m hm part => bc7_bits_eq_128 hm part, bc7Partition_lt, bc7Partition_anchor, fun r => ?_⟩
  obtain ⟨pos2, pos3a, pos3b⟩ := bc7Anchors_pos r
  obtain ⟨le2, le3a, le3b⟩ := bc7Anchors_le r
  exact ⟨pos2, le2, pos3a, le3a, pos3b, le3b⟩

end Sys2Proof.Machine
end

section
/-! Proofs about the context commands (40_context.md): the two ways a command ends in the terms of the statements, what
INIT, DESTROY and RESET check and zero, and the checks of Validate() in the bits of CFG0, CFG1 and CFG2. -/

namespace Sys2Proof.Machine

/-! ## The two ways a command ends (60_exceptions.md R264, R266) -/

/-- A command whose checks pass completes with its effect, in the parts it writes. -/
theorem completes_of_checkOf {i : Instr} {s : State} {post : State → Prop} (hcheck : checkOf i s = .success)
    (hpost : post (finish .success (effectOf i s))) : Completes i s (partsWritten i) post := by
  refine ⟨_, ?_, succeeded_finish _, sameBut_finish _ _ _ _ (effectOf_sameBut i s), hpost⟩
  rw [exec_eq, hcheck, conclude_success]

/-- A command whose checks fail ends with their code and writes STATUS alone. -/
theorem failsWith_of_checkOf {i : Instr} {s : State} {c : ResultCode} (hcheck : checkOf i s = c)
    (hne : c ≠ .success) : FailsWith i s c.code := by
  rw [FailsWith, exec_eq, hcheck, conclude_failure _ _ _ hne]; rfl

/-! ## The checks of the context commands (60_exceptions.md R262) -/

theorem contextCheck_noContext {s : State} (h : s.ctxv = false) : contextCheck s = .badContext := if_pos h

/-- Without a context INIT ends with the code of Validate(). -/
theorem checkOf_init_noContext {s : State} (h : s.ctxv = false) :
    checkOf .init s = validate s.cfg0 s.cfg1 s.cfg2 := by
  rw [checkOf, (noContextCheck_success s).2 h, andThen_success]

/-- With a context INIT does not reach Validate(). -/
theorem checkOf_init_context {s : State} (h : s.ctxv = true) : checkOf .init s = .badContext := by
  rw [checkOf, noContextCheck, if_pos h]; rfl

/-! ## ZeroData (10_state.md R44) -/

/-- Every entry of every data register is 0, in the words of the statements on INIT, DESTROY and RESET. -/
def DataZero (t : State) : Prop :=
  (∀ p : Fin 16, t.tile[p] = 0) ∧ (∀ i : Fin 16, t.block[i] = 0) ∧ t.endp = 0 ∧
    (∀ k : Fin 4, t.sel[k] = 0) ∧ t.err = 0 ∧ ∀ p : Fin 16, t.out[p] = 0

theorem dataZero_zeroData (s : State) : DataZero (zeroData s) := by
  simp [DataZero]

/-- The data registers do not hold STATUS. -/
theorem dataZero_finish {t : State} (h : DataZero t) (c : ResultCode) : DataZero (finish c t) := h

theorem dataZero_setCtxv {t : State} (h : DataZero t) (b : Bool) : DataZero (t.setCtxv b) := h

/-! ## INIT, DESTROY and RESET -/

/-- Settles O35: the three cases are those of INIT's check, and its effect is ZeroData with CTXV set. -/
theorem initOpensContext : Obligations.InitOpensContext := by
  intro s
  refine ⟨fun hno hvalid => ?_, fun hctx => ?_, fun hno hinvalid => ?_⟩
  · exact completes_of_checkOf ((checkOf_init_noContext hno).trans hvalid)
      ⟨rfl, dataZero_finish (dataZero_setCtxv (dataZero_zeroData s) true) .success⟩
  · exact failsWith_of_checkOf (checkOf_init_context hctx) (by decide)
  · exact failsWith_of_checkOf (checkOf_init_noContext hno) hinvalid

/-- Settles O37: DESTROY and RESET share their check and ZeroData; RESET keeps the CTXV it has checked. -/
theorem destroyAndResetZeroData : Obligations.DestroyAndResetZeroData := by
  intro s
  refine ⟨fun hctx => ?_, fun hctx => ?_, fun hno => ?_⟩
  · exact completes_of_checkOf (i := .destroy) ((contextCheck_success s).2 hctx)
      ⟨rfl, dataZero_finish (dataZero_setCtxv (dataZero_zeroData s) false) .success⟩
  · exact completes_of_checkOf (i := .reset) ((contextCheck_success s).2 hctx)
      ⟨hctx, dataZero_finish (dataZero_zeroData s) .success⟩
  · have hcheck := contextCheck_noContext hno
    exact ⟨failsWith_of_checkOf (i := .destroy) hcheck (by decide),
      failsWith_of_checkOf (i := .reset) hcheck (by decide)⟩

/-! ## The fields Validate() reads, as bits (40_context.md R124; 10_state.md R30 to R32) -/

/-- A field holds a number that fits into it exactly when its bits are that number. -/
theorem toNat_eq_iff_eq_ofNat {n k : Nat} (hk : k < 2 ^ n) (x : BitVec n) : x.toNat = k ↔ x = BitVec.ofNat n k := by
  rw [← BitVec.toNat_inj, BitVec.toNat_ofNat, Nat.mod_eq_of_lt hk]

theorem slice_bit_eq_one_iff (w : Word) (i : Nat) : slice i i w.toNat = 1 ↔ w.getLsbD i = true := by
  rw [slice_bit, Bool.toNat_eq_one]

theorem slice_bit_eq_zero_iff (w : Word) (i : Nat) : slice i i w.toNat = 0 ↔ w.getLsbD i = false := by
  rw [slice_bit, Bool.toNat_eq_zero]

theorem slice_eq_zero_iff (w : Word) (hi lo : Nat) :
    slice hi lo w.toNat = 0 ↔ w.extractLsb' lo (hi + 1 - lo) = 0 := by
  rw [slice_eq_extract]; exact toNat_eq_iff_eq_ofNat (by positivity) _

theorem cfgFormat_eq_iff (w : Word) {k : Nat} (hk : k < 8) :
    cfgFormat w = k ↔ w.extractLsb' 0 3 = BitVec.ofNat 3 k := by
  rw [cfgFormat_eq]; exact toNat_eq_iff_eq_ofNat hk _

theorem cfgUber_eq_seven_iff (w : Word) : cfgUber w = 7 ↔ w.extractLsb' 8 3 = 7 := by
  rw [cfgUber_eq]; exact toNat_eq_iff_eq_ofNat (by decide) _

theorem cfgMaxPart_eq_zero_iff (w : Word) : cfgMaxPart w = 0 ↔ w.extractLsb' 8 7 = 0 := slice_eq_zero_iff w 14 8

theorem cfgMaxPart_gt_iff (w : Word) : cfgMaxPart w > 64 ↔ w.extractLsb' 8 7 > 64 := by
  rw [cfgMaxPart_eq]; rfl

theorem cfgModeMask_eq_zero_iff (w : Word) : cfgModeMask w = 0 ↔ w.extractLsb' 0 8 = 0 := slice_eq_zero_iff w 7 0

theorem cfgWeight_eq_zero_iff (w : Word) (c : Nat) : cfgWeight w c = 0 ↔ w.extractLsb' (8 * c) 8 = 0 := by
  rw [cfgWeight_eq]; exact toNat_eq_iff_eq_ofNat (by decide) _

theorem cfgFormat_notMem_iff (w : Word) : cfgFormat w ∉ [1, 2, 3, 4] ↔
    w.extractLsb' 0 3 ≠ 1 ∧ w.extractLsb' 0 3 ≠ 2 ∧ w.extractLsb' 0 3 ≠ 3 ∧ w.extractLsb' 0 3 ≠ 4 := by
  simp [cfgFormat_eq_iff]

/-- Settles O36: the two chains of checks agree condition by condition. -/
theorem validateChecksInOrder : Obligations.ValidateChecksInOrder := by
  intro cfg0 cfg1 cfg2
  have hreserved := or_congr (not_congr (slice_bit_eq_zero_iff cfg0 11))
    (or_congr (not_congr (slice_eq_zero_iff cfg0 31 20)) (not_congr (slice_eq_zero_iff cfg1 31 15)))
  rw [Bool.not_eq_false] at hreserved
  have huber := cfgUber_eq_seven_iff cfg0
  have hmaxPart := or_congr (cfgMaxPart_eq_zero_iff cfg1) (cfgMaxPart_gt_iff cfg1)
  have hweight := cfgWeight_eq_zero_iff cfg2
  have hperceptual := and_congr (slice_bit_eq_one_iff cfg0 3)
    (or_congr (hweight 0) (or_congr (hweight 1) (or_congr (hweight 2) (hweight 3))))
  have huse3 := and_congr (slice_bit_eq_one_iff cfg0 7) (slice_bit_eq_zero_iff cfg0 6)
  have hbc7 := and_congr (cfgFormat_eq_iff cfg0 (k := 4) (by decide)) (cfgModeMask_eq_zero_iff cfg1)
  exact if_congr hreserved rfl <| if_congr huber rfl <| if_congr hmaxPart rfl <| if_congr hperceptual rfl <|
    if_congr (cfgFormat_notMem_iff cfg0) rfl <| if_congr huse3 rfl <| if_congr hbc7 rfl rfl

end Sys2Proof.Machine
end

section
/-! Proofs about BC1 (41_bc1.md): numbers cut into fields, the block and the registers as such numbers, PACK.BC1 and
UNPACK.BC1, the palette, and the 5:6:5 colours. -/

namespace Sys2Proof.Machine

/-! ## Fields of fields, and a number on top of another (00_scope.md R7) -/

/-- A small field of a field of `k` such fields is a small field of the whole number. -/
theorem digit_digit {k r : Nat} (h : r < k) (w v q : Nat) :
    digit w (digit (w * k) v q) r = digit w v (k * q + r) := by
  obtain ⟨m, rfl⟩ : ∃ m, k = r + 1 + m := ⟨k - (r + 1), by omega⟩
  have hsplit : 2 ^ (w * (r + 1 + m)) = 2 ^ (w * r) * (2 ^ w * 2 ^ (w * m)) := by
    rw [← Nat.pow_add, ← Nat.pow_add]; congr 1; ring
  have hpos : 2 ^ (w * ((r + 1 + m) * q + r)) = 2 ^ (w * (r + 1 + m) * q) * 2 ^ (w * r) := by
    rw [← Nat.pow_add]; congr 1; ring
  simp only [digit]
  rw [hpos, hsplit, Nat.mod_mul_right_div_self, Nat.mod_mul_right_mod, Nat.div_div_eq_div_mul]

/-- Cutting a number to `n` fields keeps those fields. -/
theorem digit_mod {n p : Nat} (h : p < n) (w v : Nat) : digit w (v % 2 ^ (w * n)) p = digit w v p := by
  rw [← digit_zero, digit_digit h, Nat.mul_zero, Nat.zero_add]

/-- The fields of the lower part are those of the lower part alone. -/
theorem digit_add_of_lt {n p : Nat} (h : p < n) (w lo hi : Nat) :
    digit w (lo + hi * 2 ^ (w * n)) p = digit w lo p := by
  rw [← digit_mod h, Nat.add_mul_mod_self_right, digit_mod h]

/-- The fields above the lower part are those of the upper part. -/
theorem digit_add_of_ge {w n lo : Nat} (hlo : lo < 2 ^ (w * n)) (hi q : Nat) :
    digit w (lo + hi * 2 ^ (w * n)) (n + q) = digit w hi q := by
  have htop : (lo + hi * 2 ^ (w * n)) / 2 ^ (w * n) = hi := by
    rw [Nat.add_mul_div_right _ _ (Nat.two_pow_pos _), Nat.div_eq_of_lt hlo, Nat.zero_add]
  rw [digit, Nat.mul_add, Nat.pow_add, ← Nat.div_div_eq_div_mul, htop, digit]

/-! ## The bytes of a block made of two halves (10_state.md R35) -/

theorem blockOf_low (lo hi : Nat) {i : Nat} (h : i < 8) :
    (blockOf lo hi)[i] = BitVec.ofNat 8 (digit 8 lo i) := by
  simp [blockOf, h]

theorem blockOf_high_zero (lo : Nat) (i : Fin 8) : (blockOf lo 0)[8 + i.val] = 0 := by
  have h : ¬ 8 + i.val < 8 := by omega
  simp [blockOf, h, digit]

/-- BLOCK[0..7] rewritten from its own number. -/
theorem blockOf_blockLow (b : Vector Byte 16) (hi : Nat) (i : Fin 8) :
    (blockOf (blockLow b) hi)[i.val] = b[i.val] := by
  rw [blockOf_low _ _ i.isLt, digit_blockLow b i.val i.isLt, BitVec.ofNat_toNat, BitVec.setWidth_eq]

/-! ## ENDP as the two endpoints (10_state.md R36) -/

theorem endpC0_eq_digit (e : Word) : endpC0 e = digit 16 e.toNat 0 := rfl
theorem endpC1_eq_digit (e : Word) : endpC1 e = digit 16 e.toNat 1 := rfl

theorem endpC0_lt (e : Word) : endpC0 e < 2 ^ 16 := slice_lt 15 0 _
theorem endpC1_lt (e : Word) : endpC1 e < 2 ^ 16 := slice_lt 31 16 _

/-- Two fields of 16 bits make up a number cut to 32 bits. -/
theorem gather_two_digits (v : Nat) : gather 16 [digit 16 v 0, digit 16 v 1] = v % 2 ^ 32 := gather_digits 16 v 2

theorem gather_endp (e : Word) : gather 16 [endpC0 e, endpC1 e] = e.toNat :=
  (gather_two_digits e.toNat).trans (Nat.mod_eq_of_lt e.isLt)

theorem gather_endpoints_lt (c0 c1 : Nat) : gather 16 [c0, c1] < 2 ^ 32 := gather_lt 16 [c0, c1]

theorem toNat_endpOfBc1 (c0 c1 : Nat) : (endpOfBc1 c0 c1).toNat = gather 16 [c0, c1] := by
  rw [endpOfBc1, BitVec.toNat_ofNat, Nat.mod_eq_of_lt (gather_endpoints_lt c0 c1)]

theorem endpC0_endpOfBc1 (c0 c1 : Nat) : endpC0 (endpOfBc1 c0 c1) = c0 % 2 ^ 16 := by
  rw [endpC0_eq_digit, toNat_endpOfBc1, digit_gather]; rfl

theorem endpC1_endpOfBc1 (c0 c1 : Nat) : endpC1 (endpOfBc1 c0 c1) = c1 % 2 ^ 16 := by
  rw [endpC1_eq_digit, toNat_endpOfBc1, digit_gather]; rfl

/-- ENDP is rewritten from its own endpoints. -/
theorem endpOfBc1_endp (e : Word) : endpOfBc1 (endpC0 e) (endpC1 e) = e := by
  apply BitVec.eq_of_toNat_eq
  rw [toNat_endpOfBc1, gather_endp]

/-! ## SEL0..SEL3 as the nibbles of two channels (10_state.md R37) -/

theorem selChannel_take (sel : Vector Word 4) (k : Fin 2) :
    (selChannel sel k).toList.take 8 = (List.range 8).map (digit 4 sel[2 * k.val].toNat) := by
  apply List.ext_getElem (by simp)
  intro n hn _
  have hn : n < 8 := by simpa using hn
  have hword : n / 8 = 0 := by omega
  have hnibble : n % 8 = n := by omega
  simp [selNibble, hword, hnibble]

theorem selChannel_drop (sel : Vector Word 4) (k : Fin 2) :
    (selChannel sel k).toList.drop 8 = (List.range 8).map (digit 4 sel[2 * k.val + 1].toNat) := by
  apply List.ext_getElem (by simp)
  intro n hn _
  have hn : n < 8 := by simpa using hn
  have hword : (8 + n) / 8 = 1 := by omega
  have hnibble : (8 + n) % 8 = n := by omega
  simp [selNibble, hword, hnibble]

/-- Eight nibbles make up their word. -/
theorem ofNat_gather_nibbles (w : Word) : BitVec.ofNat 32 (gather 4 ((List.range 8).map (digit 4 w.toNat))) = w := by
  rw [gather_digits, Nat.mod_eq_of_lt w.isLt, BitVec.ofNat_toNat, BitVec.setWidth_eq]

/-- SEL0 and SEL1 are rewritten from their own nibbles. -/
theorem selWords_selChannel_zero (sel : Vector Word 4) (v : Vector Nat 16) :
    (selWords (selChannel sel 0) v)[0] = sel[0] ∧ (selWords (selChannel sel 0) v)[1] = sel[1] := by
  have hword {l : List Nat} {w : Word} (hl : l = (List.range 8).map (digit 4 w.toNat)) :
      BitVec.ofNat 32 (gather 4 l) = w := by rw [hl, ofNat_gather_nibbles]
  exact ⟨hword (selChannel_take sel 0), hword (selChannel_drop sel 0)⟩

/-- Without a channel 1, SEL2 and SEL3 are 0. -/
theorem selWords_noSelectors (v : Vector Nat 16) :
    (selWords v noSelectors)[2] = 0 ∧ (selWords v noSelectors)[3] = 0 := ⟨rfl, rfl⟩

/-- Selectors that fit into nibbles are read back as they were written. -/
theorem selChannel_selWords_zero {a : Vector Nat 16} (ha : ∀ p : Fin 16, a[p] < 16) (b : Vector Nat 16) :
    selChannel (selWords a b) 0 = a := by
  ext p hp
  rw [selChannel_getElem, selNibble_selWords_zero]
  exact Nat.mod_eq_of_lt (ha ⟨p, hp⟩)

/-! ## The BC1 block as a number (30_encoding.md R75) -/

theorem bc1C0_eq_digit (b : Nat) : bc1C0 b = digit 16 b 0 := rfl
theorem bc1C1_eq_digit (b : Nat) : bc1C1 b = digit 16 b 1 := rfl

theorem bc1C0_lt (b : Nat) : bc1C0 b < 2 ^ 16 := slice_lt 15 0 b
theorem bc1C1_lt (b : Nat) : bc1C1 b < 2 ^ 16 := slice_lt 31 16 b

/-- The selectors are the fields of two bits above the endpoints. -/
theorem bc1Sel_eq_digit (b : Nat) {p : Nat} (h : p < 16) : bc1Sel b p = digit 2 b (16 + p) :=
  digit_digit (k := 16) h 2 b 1

theorem bc1Sel_le (b p : Nat) : bc1Sel b p ≤ 3 := Nat.le_of_lt_succ (digit_lt 2 _ p)

theorem bc1Sels_getElem (b : Nat) (p : Fin 16) : (bc1Sels b)[p] = bc1Sel b p.val := by simp [bc1Sels]

theorem bc1Pack_lt (c0 c1 : Nat) (v : Vector Nat 16) : bc1Pack c0 c1 v < 2 ^ 64 := by
  have hendp := gather_endpoints_lt c0 c1
  have hsels : gather 2 v.toList < 2 ^ 32 := by simpa using gather_lt 2 v.toList
  rw [bc1Pack]; omega

theorem bc1C0_bc1Pack (c0 c1 : Nat) (v : Vector Nat 16) : bc1C0 (bc1Pack c0 c1 v) = c0 % 2 ^ 16 := by
  rw [bc1C0_eq_digit, bc1Pack, digit_add_of_lt (n := 2) (by decide), digit_gather]; rfl

theorem bc1C1_bc1Pack (c0 c1 : Nat) (v : Vector Nat 16) : bc1C1 (bc1Pack c0 c1 v) = c1 % 2 ^ 16 := by
  rw [bc1C1_eq_digit, bc1Pack, digit_add_of_lt (n := 2) (by decide), digit_gather]; rfl

theorem bc1Sel_bc1Pack (c0 c1 : Nat) (v : Vector Nat 16) (p : Fin 16) :
    bc1Sel (bc1Pack c0 c1 v) p.val = v[p] % 4 := by
  rw [bc1Sel_eq_digit _ p.isLt, bc1Pack, digit_add_of_ge (n := 16) (gather_endpoints_lt c0 c1), digit_gather]
  simp [List.getD]

/-- Selectors 0..3 are read back from the block they were packed into. -/
theorem bc1Sels_bc1Pack (c0 c1 : Nat) {v : Vector Nat 16} (hv : ∀ p : Fin 16, v[p] ≤ 3) :
    bc1Sels (bc1Pack c0 c1 v) = v := by
  ext p hp
  calc (bc1Sels (bc1Pack c0 c1 v))[p]
    _ = bc1Sel (bc1Pack c0 c1 v) p := bc1Sels_getElem _ ⟨p, hp⟩
    _ = v[p] % 4 := bc1Sel_bc1Pack c0 c1 v ⟨p, hp⟩
    _ = v[p] := Nat.mod_eq_of_lt (Nat.lt_succ_of_le (hv ⟨p, hp⟩))

/-- A block is packed from its own fields. -/
theorem bc1Pack_fields {b : Nat} (hb : b < 2 ^ 64) : bc1Pack (bc1C0 b) (bc1C1 b) (bc1Sels b) = b := by
  have hsels : (bc1Sels b).toList = (List.range 16).map (digit 2 (slice 63 32 b)) := by
    apply List.ext_getElem (by simp)
    intro p _ _
    simp [bc1Sels, bc1Sel]
  have hhigh : gather 2 (bc1Sels b).toList = b / 2 ^ 32 % 2 ^ 32 := by
    rw [hsels, gather_digits]; exact Nat.mod_mod _ _
  rw [bc1Pack, bc1C0_eq_digit, bc1C1_eq_digit, gather_two_digits, hhigh]
  omega

/-! ## PACK.BC1 and UNPACK.BC1 (41_bc1.md R147, R148) -/

/-- A command whose checks pass answers its effect, completed. -/
theorem exec_of_checkOf {i : Instr} {s : State} (h : checkOf i s = .success) :
    exec i s = .next (finish .success (effectOf i s)) := by
  rw [exec_eq, h, conclude_success]

theorem checkOf_finish (i : Instr) (c : ResultCode) (s : State) : checkOf i (finish c s) = checkOf i s := by
  cases i <;> rfl

theorem effectOf_finish (i : Instr) (c : ResultCode) (s : State) :
    effectOf i (finish c s) = finish c (effectOf i s) := by
  cases i <;> rfl

/-- A command does not read what the completion before it left in STATUS. -/
theorem exec_finish (i : Instr) (c : ResultCode) (s : State) : exec i (finish c s) = exec i s := by
  rw [exec_eq, exec_eq, checkOf_finish, effectOf_finish]; rfl

/-- The second of two commands answers its effect on the effect of the first. -/
theorem exec_finish_of_checkOf {i : Instr} {s : State} (h : checkOf i s = .success) (c : ResultCode) :
    exec i (finish c s) = .next (finish .success (effectOf i s)) := by
  rw [exec_finish, exec_of_checkOf h]

/-- A command that keeps CTXV leaves the next one as ready as it was. -/
theorem ready_effectOf {f : Fmt} {i : Instr} {s : State} (hkept : Part.ctxv ∉ partsWritten i) (h : Ready f s) :
    Ready f (effectOf i s) := by
  obtain ⟨_, _, hcfg0, _, _, _, _, hctxv, _⟩ := effectOf_sameBut i s
  rwa [Ready, hctxv hkept, hcfg0]

theorem checkOf_packBc1 {s : State} (h : Ready .bc1 s) : checkOf .packBc1 s = selectorCheck 3 0 s := by
  rw [checkOf, (dataChecks_success .bc1 s).2 h, andThen_success]

theorem checkOf_packBc1_success {s : State} (h : Ready .bc1 s) (hsel : ∀ p, selNibble s.sel 0 p ≤ 3) :
    checkOf .packBc1 s = .success :=
  (checkOf_packBc1 h).trans ((selectorCheck_success 3 0 s).2 hsel)

theorem checkOf_unpackBc1 {s : State} (h : Ready .bc1 s) : checkOf .unpackBc1 s = .success :=
  (dataChecks_success .bc1 s).2 h

/-- The block PACK.BC1 makes of the registers. -/
def packedBc1 (s : State) : Nat := bc1Pack (endpC0 s.endp) (endpC1 s.endp) (selChannel s.sel 0)

theorem effectOf_packBc1_block (s : State) : (effectOf .packBc1 s).block = blockOf (packedBc1 s) 0 := rfl

theorem blockLow_packBc1 (s : State) : blockLow (effectOf .packBc1 s).block = packedBc1 s :=
  blockLow_blockOf _ 0 (bc1Pack_lt _ _ _)

theorem effectOf_unpackBc1_endp (s : State) : (effectOf .unpackBc1 s).endp =
    endpOfBc1 (bc1C0 (blockLow s.block)) (bc1C1 (blockLow s.block)) := rfl

theorem effectOf_unpackBc1_sel (s : State) : (effectOf .unpackBc1 s).sel =
    selWords (bc1Sels (blockLow s.block)) noSelectors := rfl

theorem selChannel_unpackBc1 (s : State) :
    selChannel (effectOf .unpackBc1 s).sel 0 = bc1Sels (blockLow s.block) := by
  rw [effectOf_unpackBc1_sel, selChannel_selWords_zero]
  intro p
  rw [bc1Sels_getElem]
  exact Nat.lt_of_le_of_lt (bc1Sel_le _ _) (by decide)

/-- UNPACK.BC1 writes the block's selectors to channel 0 and zeros to channel 1. -/
theorem selNibble_unpackBc1 (s : State) (p : Fin 16) :
    selNibble (effectOf .unpackBc1 s).sel 0 p = bc1Sel (blockLow s.block) p.val ∧
    selNibble (effectOf .unpackBc1 s).sel 1 p = 0 := by
  constructor
  · rw [← selChannel_getElem _ 0 p.val p.isLt]
    simp only [selChannel_unpackBc1]
    exact bc1Sels_getElem _ p
  · rw [effectOf_unpackBc1_sel, selNibble_selWords_one, Fin.getElem_fin, noSelectors_getElem]

/-- UNPACK.BC1 leaves selectors that PACK.BC1 accepts. -/
theorem selNibble_unpackBc1_le (s : State) (p : Fin 16) : selNibble (effectOf .unpackBc1 s).sel 0 p ≤ 3 :=
  (selNibble_unpackBc1 s p).1.trans_le (bc1Sel_le _ _)

/-- After UNPACK.BC1 the registers pack to the block they came from. -/
theorem packedBc1_unpackBc1 (s : State) : packedBc1 (effectOf .unpackBc1 s) = blockLow s.block := by
  rw [packedBc1, selChannel_unpackBc1, effectOf_unpackBc1_endp, endpC0_endpOfBc1, endpC1_endpOfBc1,
    Nat.mod_eq_of_lt (bc1C0_lt _), Nat.mod_eq_of_lt (bc1C1_lt _), bc1Pack_fields (blockLow_lt s.block)]

/-- After PACK.BC1 the block holds the endpoints it was packed from. -/
theorem endp_packBc1_unpackBc1 (s : State) : (effectOf .unpackBc1 (effectOf .packBc1 s)).endp = s.endp := by
  rw [effectOf_unpackBc1_endp, blockLow_packBc1, packedBc1, bc1C0_bc1Pack, bc1C1_bc1Pack,
    Nat.mod_eq_of_lt (endpC0_lt _), Nat.mod_eq_of_lt (endpC1_lt _), endpOfBc1_endp]

/-- After PACK.BC1 with selectors 0..3 the block holds the selectors it was packed from. -/
theorem sel_packBc1_unpackBc1 {s : State} (h : ∀ p, selNibble s.sel 0 p ≤ 3) :
    (effectOf .unpackBc1 (effectOf .packBc1 s)).sel = selWords (selChannel s.sel 0) noSelectors := by
  rw [effectOf_unpackBc1_sel, blockLow_packBc1, packedBc1, bc1Sels_bc1Pack]
  intro p
  exact (selChannel_getElem s.sel 0 p.val p.isLt).trans_le (h p)

/-- Settles O59: a block is packed from its own fields (`bc1Pack_fields`), and packed fields are read back. -/
theorem bc1RoundTrip : Obligations.Bc1RoundTrip := by
  intro s hready
  refine ⟨?unpackPack, fun hsel => ?packUnpack⟩
  case unpackPack =>
    have hblock : (effectOf .packBc1 (effectOf .unpackBc1 s)).block = blockOf (blockLow s.block) 0 := by
      rw [effectOf_packBc1_block, packedBc1_unpackBc1]
    have hready' : Ready .bc1 (effectOf .unpackBc1 s) := ready_effectOf (by decide) hready
    have hunpack := exec_of_checkOf (checkOf_unpackBc1 hready)
    have hpack := exec_finish_of_checkOf (checkOf_packBc1_success hready' (selNibble_unpackBc1_le s)) .success
    refine ⟨_, _, hunpack, hpack, succeeded_finish _, ?_⟩
    simp only [finish_block, hblock, blockOf_blockLow, blockOf_high_zero, implies_true, and_self]
  case packUnpack =>
    have hwords := sel_packBc1_unpackBc1 hsel
    obtain ⟨h0, h1⟩ := selWords_selChannel_zero s.sel noSelectors
    obtain ⟨h2, h3⟩ := selWords_noSelectors (selChannel s.sel 0)
    have hready' : Ready .bc1 (effectOf .packBc1 s) := ready_effectOf (by decide) hready
    have hpack := exec_of_checkOf (checkOf_packBc1_success hready hsel)
    have hunpack := exec_finish_of_checkOf (checkOf_unpackBc1 hready') .success
    refine ⟨_, _, hpack, hunpack, succeeded_finish _, ?_⟩
    simp only [finish_endp, finish_sel, endp_packBc1_unpackBc1, hwords, h0, h1, h2, h3, and_self]

/-! ## The bytes PACK.BC1 writes (41_bc1.md R147) -/

/-- A selector above the largest that the format takes fails the check. -/
theorem selectorCheck_badParameter {n : Nat} {k : Fin 2} {s : State} (h : ∃ p, n < selNibble s.sel k p) :
    selectorCheck n k s = .badParameter := by
  obtain ⟨p, hp⟩ := h
  have hne : selectorCheck n k s ≠ .success := fun hs => absurd ((selectorCheck_success n k s).1 hs p) (by omega)
  unfold selectorCheck at hne ⊢
  exact if_neg fun hall => hne (if_pos hall)

theorem packedBc1_eq (s : State) :
    packedBc1 s = s.endp.toNat + gather 2 (selChannel s.sel 0).toList * 2 ^ 32 := by
  rw [packedBc1, bc1Pack, gather_endp]

/-- BLOCK[0..3] are the bytes of ENDP. -/
theorem packBc1_low_bytes (s : State) {i : Nat} (h : i < 4) :
    (effectOf .packBc1 s).block[i] = s.endp.extractLsb' (8 * i) 8 := by
  simp only [effectOf_packBc1_block]
  rw [blockOf_low _ _ (by omega), packedBc1_eq, digit_add_of_lt (n := 4) h, ofNat_digit_eq_byteOfWord,
    byteOfWord_eq_extract]

/-- Sixteen selectors of two bits as a sum of powers. -/
theorem gather_selChannel {sel : Vector Word 4} {k : Fin 2} (h : ∀ p, selNibble sel k p ≤ 3) :
    gather 2 (selChannel sel k).toList = ∑ p : Fin 16, selNibble sel k p * 2 ^ (2 * p.val) := by
  rw [selChannel, Vector.toList_ofFn, gather_ofFn _ _ _ fun p => Nat.lt_succ_of_le (h p)]

/-- BLOCK[4..7] are the bytes of the gathered selectors. -/
theorem packBc1_high_bytes (s : State) (j : Fin 4) :
    ((effectOf .packBc1 s).block[4 + j.val]).toNat = digit 8 (gather 2 (selChannel s.sel 0).toList) j.val := by
  simp only [effectOf_packBc1_block]
  rw [blockOf_low _ _ (by omega), packedBc1_eq, digit_add_of_ge (n := 4) s.endp.isLt, BitVec.toNat_ofNat,
    Nat.mod_eq_of_lt (digit_lt 8 _ _)]

/-- Settles O38: the block is ENDP below the gathered selectors, and the check is that of the nibbles. -/
theorem packBc1Result : Obligations.PackBc1Result := by
  intro s hready
  refine ⟨fun hsel => ?_, fun hbad => ?_⟩
  · refine completes_of_checkOf (checkOf_packBc1_success hready hsel) ?_
    refine ⟨packBc1_low_bytes s (by decide : 0 < 4), packBc1_low_bytes s (by decide : 1 < 4),
      packBc1_low_bytes s (by decide : 2 < 4), packBc1_low_bytes s (by decide : 3 < 4), fun j => ?_,
      blockOf_high_zero (packedBc1 s)⟩
    exact (packBc1_high_bytes s j).trans (by rw [gather_selChannel hsel]; rfl)
  · exact failsWith_of_checkOf ((checkOf_packBc1 hready).trans (selectorCheck_badParameter hbad)) (by decide)

/-! ## What UNPACK.BC1 reads from the bytes (30_encoding.md R75; 41_bc1.md R148) -/

theorem toNat_append_bytes (b0 b1 : Byte) : (b1 ++ b0).toNat = b0.toNat + 2 ^ 8 * b1.toNat := by
  rw [BitVec.toNat_append, ← Nat.shiftLeft_add_eq_or_of_lt b0.isLt, Nat.shiftLeft_eq]; ring

/-- A field of 16 bits is two bytes, the low one first. -/
theorem digit_sixteen (v q : Nat) : digit 16 v q = digit 8 v (2 * q) + 2 ^ 8 * digit 8 v (2 * q + 1) := by
  have hlow : digit 8 (digit 16 v q) 0 = digit 8 v (2 * q) := digit_digit (k := 2) (by decide) 8 v q
  have hhigh : digit 8 (digit 16 v q) 1 = digit 8 v (2 * q + 1) := digit_digit (k := 2) (by decide) 8 v q
  have hlt := digit_lt 16 v q
  rw [← hlow, ← hhigh]
  simp only [digit] at hlt ⊢
  omega

theorem bc1C0_blockLow (b : Vector Byte 16) : bc1C0 (blockLow b) = (b[1] ++ b[0]).toNat := by
  rw [bc1C0_eq_digit, digit_sixteen, toNat_append_bytes, digit_blockLow b 0 (by decide), digit_blockLow b 1 (by decide)]

theorem bc1C1_blockLow (b : Vector Byte 16) : bc1C1 (blockLow b) = (b[3] ++ b[2]).toNat := by
  rw [bc1C1_eq_digit, digit_sixteen, toNat_append_bytes, digit_blockLow b 2 (by decide), digit_blockLow b 3 (by decide)]

/-- The selector of pixel `p` is two bits of BLOCK[4 + p/4]. -/
theorem bc1Sel_blockLow (b : Vector Byte 16) (p : Fin 16) :
    bc1Sel (blockLow b) p.val = b[4 + p.val / 4].toNat / 2 ^ (2 * (p.val % 4)) % 4 := by
  have hfield : 16 + p.val = 4 * (4 + p.val / 4) + p.val % 4 := by omega
  rw [bc1Sel_eq_digit _ p.isLt, hfield, ← digit_digit (Nat.mod_lt _ (by decide)), digit_blockLow b _ (by omega)]
  rfl

/-- ENDP made of the block's endpoints is its first word. -/
theorem endpOfBc1_blockLow (b : Vector Byte 16) :
    endpOfBc1 (bc1C0 (blockLow b)) (bc1C1 (blockLow b)) = wordOfBytes b[0] b[1] b[2] b[3] := by
  have hbyte (j : Nat) (hj : j < 4) :
      byteOfWord (endpOfBc1 (bc1C0 (blockLow b)) (bc1C1 (blockLow b))) j = b[j] := by
    have hcut : digit 8 (blockLow b % 2 ^ 32) j = digit 8 (blockLow b) j := digit_mod hj 8 _
    rw [← ofNat_digit_eq_byteOfWord, toNat_endpOfBc1, bc1C0_eq_digit, bc1C1_eq_digit, gather_two_digits, hcut,
      digit_blockLow b j (by omega), BitVec.ofNat_toNat, BitVec.setWidth_eq]
  rw [← wordOfBytes_byteOfWord (endpOfBc1 _ _), hbyte 0 (by decide), hbyte 1 (by decide), hbyte 2 (by decide),
    hbyte 3 (by decide)]

theorem effectOf_unpackBc1_out (s : State) (p : Fin 16) : (effectOf .unpackBc1 s).out[p] =
    wordOfPixel (entry (bc1Pal (cfgBc1Mode s.cfg0) (bc1C0 (blockLow s.block)) (bc1C1 (blockLow s.block)))
      (bc1Sel (blockLow s.block) p.val)) := by
  simp [effectOf, outWords, bc1Decode]

/-- Settles O40: the fields of the block's number in terms of its bytes. -/
theorem unpackBc1Result : Obligations.UnpackBc1Result := by
  intro s hready
  refine completes_of_checkOf (checkOf_unpackBc1 hready) ⟨endpOfBc1_blockLow s.block, fun p => ?_⟩
  obtain ⟨hsel, hzero⟩ := selNibble_unpackBc1 s p
  have hout := effectOf_unpackBc1_out s p
  rw [bc1Sel_blockLow] at hsel
  rw [bc1Sel_blockLow, cfgBc1Mode_eq, bc1C0_blockLow, bc1C1_blockLow] at hout
  exact ⟨hsel, hzero, hout⟩

/-! ## The palette (41_bc1.md R145, R146) -/

theorem fourColour_eq_true {c0 c1 : Nat} (h : c0 > c1) : fourColour c0 c1 = true := decide_eq_true h

theorem fourColour_eq_false {c0 c1 : Nat} (h : c0 ≤ c1) : fourColour c0 c1 = false :=
  decide_eq_false (Nat.not_lt.2 h)

/-- P[2] is opaque in every mode. -/
theorem bc1Entry2_alpha (mode c0 c1 : Nat) : (bc1Entry2 mode c0 c1).a = 255 := by
  unfold bc1Entry2; split_ifs <;> rfl

/-- P[3] of 4-colour mode is opaque in every mode. -/
theorem bc1Entry3_alpha {c0 c1 : Nat} (h : c0 > c1) (mode : Nat) : (bc1Entry3 mode c0 c1).a = 255 := by
  rw [bc1Entry3, if_pos (fourColour_eq_true h)]; split_ifs <;> rfl

/-- P[3] of 3-colour mode is transparent black in every mode. -/
theorem bc1Entry3_threeColour {c0 c1 : Nat} (h : c0 ≤ c1) (mode : Nat) : bc1Entry3 mode c0 c1 = ⟨0, 0, 0, 0⟩ := by
  simp [bc1Entry3, fourColour_eq_false h]

/-- Settles O45: the Ideal entries by their formulas, those of every mode by the laws of P[2] and P[3]. -/
theorem bc1PaletteRules : Obligations.Bc1PaletteRules := by
  intro c0 c1
  refine ⟨fun h => ?ideal4, fun h => ?ideal3, fun mode => ?every⟩
  case ideal4 => simp [bc1Pal, bc1Entry2, bc1Entry3, fourColour_eq_true h, mixPixel]
  case ideal3 => simp [bc1Pal, bc1Entry2, bc1Entry3, fourColour_eq_false h, mixPixel]
  case every =>
    exact ⟨rfl, rfl, rfl, rfl, rfl, bc1Entry2_alpha mode c0 c1, fun h => bc1Entry3_threeColour h mode,
      fun h => bc1Entry3_alpha h mode⟩

/-! ## 5:6:5 colours (41_bc1.md R142 to R144) -/

theorem q5_lt {v : Nat} (h : v < 256) : q5 v < 32 := by unfold q5; omega

theorem q6_lt {v : Nat} (h : v < 256) : q6 v < 64 := by unfold q6; omega

/-- Bit replication of a 5-bit channel as arithmetic. -/
theorem x5_eq {v : Nat} (h : v < 32) : x5 v = 8 * v + v / 4 := by
  have hlow : v >>> 2 < 2 ^ 3 := by rw [Nat.shiftRight_eq_div_pow]; omega
  rw [x5, ← Nat.shiftLeft_add_eq_or_of_lt hlow, Nat.shiftLeft_eq, Nat.shiftRight_eq_div_pow]; omega

/-- Bit replication of a 6-bit channel as arithmetic. -/
theorem x6_eq {v : Nat} (h : v < 64) : x6 v = 4 * v + v / 16 := by
  have hlow : v >>> 4 < 2 ^ 2 := by rw [Nat.shiftRight_eq_div_pow]; omega
  rw [x6, ← Nat.shiftLeft_add_eq_or_of_lt hlow, Nat.shiftLeft_eq, Nat.shiftRight_eq_div_pow]; omega

/-- The three fields of a 5:6:5 word do not overlap. -/
theorem q565_eq (r : Nat) {g b : Nat} (hg : g < 256) (hb : b < 256) :
    q565 r g b = 2048 * q5 r + 32 * q6 g + q5 b := by
  have hblue : q5 b < 2 ^ 5 := q5_lt hb
  have hgreen : q6 g < 2 ^ 6 := q6_lt hg
  have hlow : q6 g <<< 5 ||| q5 b = 32 * q6 g + q5 b := by
    rw [← Nat.shiftLeft_add_eq_or_of_lt hblue, Nat.shiftLeft_eq]; omega
  have hlt : 32 * q6 g + q5 b < 2 ^ 11 := by omega
  rw [q565, Nat.or_assoc, hlow, ← Nat.shiftLeft_add_eq_or_of_lt hlt, Nat.shiftLeft_eq]; omega

/-- Q5 and Q6 round to nearest: twice the distance to the exact value is at most one step. -/
theorem quantize_rounds (v : Nat) :
    2 * (255 * q5 v) ≤ 2 * (31 * v) + 255 ∧ 2 * (31 * v) ≤ 2 * (255 * q5 v) + 255 ∧
    2 * (255 * q6 v) ≤ 2 * (63 * v) + 255 ∧ 2 * (63 * v) ≤ 2 * (255 * q6 v) + 255 := by
  unfold q5 q6; omega

/-- Expanding a quantized channel misses it by at most 4 or 2. -/
theorem expand_quantize_bound {v : Nat} (h : v < 256) :
    x5 (q5 v) ≤ v + 4 ∧ v ≤ x5 (q5 v) + 4 ∧ x6 (q6 v) ≤ v + 2 ∧ v ≤ x6 (q6 v) + 2 := by
  rw [x5_eq (q5_lt h), x6_eq (q6_lt h)]
  unfold q5 q6; omega

theorem unpack565_eq {c : Nat} (h : c < 65536) :
    unpack565 c = ⟨x5 (c / 2048), x6 (c / 32 % 64), x5 (c % 32), 255⟩ := by
  have hred : slice 15 11 c = c / 2048 := Nat.mod_eq_of_lt (by omega)
  have hgreen : slice 10 5 c = c / 32 % 64 := rfl
  have hblue : slice 4 0 c = c % 32 := by simp [slice]
  rw [unpack565, hred, hgreen, hblue]

/-- Settles O46: the formulas, rounding, expansion and the bounds, each by its law. -/
theorem bc1QuantizationBound : Obligations.Bc1QuantizationBound := by
  refine ⟨fun v hv => ?_, fun v hv => ?_, fun v hv => ?_, rfl, rfl, rfl, rfl, fun r g b _ => q565_eq r,
    fun c => unpack565_eq⟩
  · obtain ⟨hlow5, hhigh5, hlow6, hhigh6⟩ := quantize_rounds v
    exact ⟨rfl, rfl, q5_lt hv, q6_lt hv, hlow5, hhigh5, hlow6, hhigh6, expand_quantize_bound hv⟩
  · have hx := x5_eq hv
    exact ⟨hx, by omega⟩
  · have hx := x6_eq hv
    exact ⟨hx, by omega⟩

end Sys2Proof.Machine
end

section
/-! Proofs about BC4 and BC5 (42_bc4_bc5.md): the half of a block that holds one channel as a number, ENDP and SEL as
the fields of two such halves, PACK and UNPACK of both formats, the palette, and the search window. -/

namespace Sys2Proof.Machine

/-! ## The half of a block that holds one channel (30_encoding.md R77; 42_bc4_bc5.md R161, R166) -/

theorem bc4E0_eq_digit (b : Nat) : bc4E0 b = digit 8 b 0 := rfl
theorem bc4E1_eq_digit (b : Nat) : bc4E1 b = digit 8 b 1 := rfl

theorem bc4Sel_le (b p : Nat) : bc4Sel b p ≤ 7 := Nat.le_of_lt_succ (digit_lt 3 _ p)

theorem bc4Sels_getElem (b : Nat) (p : Fin 16) : (bc4Sels b)[p] = bc4Sel b p.val := by simp [bc4Sels]

/-- The 48 bits of the selectors are the six bytes above the endpoints. -/
theorem slice_selectors_eq_sum (v : Nat) :
    slice 63 16 v = ∑ j : Fin 6, digit 8 v (2 + j.val) * 2 ^ (8 * j.val) := by
  have hbyte (j : Nat) : digit 8 v (2 + j) = digit 8 (v / 2 ^ 16) j := by
    rw [digit, digit, Nat.mul_add, Nat.pow_add, ← Nat.div_div_eq_div_mul]
  simp only [hbyte]
  rw [← gather_ofFn 8 6 (fun j => digit 8 (v / 2 ^ 16) j.val) fun j => digit_lt 8 _ _]
  exact (gather_digits 8 (v / 2 ^ 16) 6).symm

/-- Gathering the selectors of a half gives its upper 48 bits. -/
theorem gather_bc4Sels (b : Nat) : gather 3 (bc4Sels b).toList = b / 2 ^ 16 % 2 ^ 48 := by
  have hsels : (bc4Sels b).toList = (List.range 16).map (digit 3 (slice 63 16 b)) := by
    apply List.ext_getElem (by simp)
    intro p _ _
    simp [bc4Sels, bc4Sel]
  rw [hsels, gather_digits]
  exact Nat.mod_mod _ _

/-! ## ENDP as the endpoints of two halves (10_state.md R36) -/

theorem toNat_append_halves (lo hi : Half) : (hi ++ lo).toNat = lo.toNat + 2 ^ 16 * hi.toNat := by
  rw [BitVec.toNat_append, ← Nat.shiftLeft_add_eq_or_of_lt lo.isLt, Nat.shiftLeft_eq]; ring

/-- The endpoints of a half are its low 16 bits. -/
theorem gather_bc4_endpoints (b : Nat) (l : List Nat) :
    gather 8 (bc4E0 b :: bc4E1 b :: l) = b % 2 ^ 16 + 2 ^ 16 * gather 8 l := by
  simp only [gather_cons, bc4E0_eq_digit, bc4E1_eq_digit, digit]
  omega

/-- ENDP of a BC5 block is the low 16 bits of each half. -/
theorem endpOfBc5_halves (a b : Nat) :
    endpOfBc5 (bc4E0 a) (bc4E1 a) (bc4E0 b) (bc4E1 b) = BitVec.ofNat 16 b ++ BitVec.ofNat 16 a := by
  apply BitVec.eq_of_toNat_eq
  rw [endpOfBc5, gather_bc4_endpoints, gather_bc4_endpoints, toNat_append_halves, gather_nil]
  simp only [BitVec.toNat_ofNat]
  omega

/-- ENDP of a BC4 block is the low 16 bits of its one half. -/
theorem endpOfBc4_half (a : Nat) : endpOfBc4 (bc4E0 a) (bc4E1 a) = (0 : Half) ++ BitVec.ofNat 16 a := by
  apply BitVec.eq_of_toNat_eq
  rw [endpOfBc4, gather_bc4_endpoints, toNat_append_halves, gather_nil]
  simp only [BitVec.ofNat_eq_ofNat, BitVec.toNat_ofNat]
  omega

/-- The low 16 bits of a number, as its two low bytes. -/
theorem ofNat_of_low_bytes {v : Nat} {b0 b1 : Byte} (h0 : digit 8 v 0 = b0.toNat) (h1 : digit 8 v 1 = b1.toNat) :
    BitVec.ofNat 16 v = b1 ++ b0 := by
  apply BitVec.eq_of_toNat_eq
  rw [toNat_append_bytes, ← h0, ← h1, BitVec.toNat_ofNat, ← digit_zero]
  exact digit_sixteen v 0

theorem ofNat_blockLow (b : Vector Byte 16) : BitVec.ofNat 16 (blockLow b) = b[1] ++ b[0] :=
  ofNat_of_low_bytes (digit_blockLow b 0 (by decide)) (digit_blockLow b 1 (by decide))

theorem ofNat_blockHigh (b : Vector Byte 16) : BitVec.ofNat 16 (blockHigh b) = b[9] ++ b[8] :=
  ofNat_of_low_bytes (digit_blockHigh b 0 (by decide)) (digit_blockHigh b 1 (by decide))

theorem append_append_bytes (h : Half) (b1 b0 : Byte) : h ++ (b1 ++ b0) = h ++ b1 ++ b0 :=
  (BitVec.append_assoc ..).symm

/-! ## SEL0..SEL3 as the selectors of two halves (10_state.md R37) -/

/-- Selectors of channel 1 that fit into nibbles are read back as they were written. -/
theorem selChannel_selWords_one (a : Vector Nat 16) {b : Vector Nat 16} (hb : ∀ p : Fin 16, b[p] < 16) :
    selChannel (selWords a b) 1 = b := by
  ext p hp
  rw [selChannel_getElem, selNibble_selWords_one]
  exact Nat.mod_eq_of_lt (hb ⟨p, hp⟩)

theorem bc4Sels_lt_sixteen (b : Nat) (p : Fin 16) : (bc4Sels b)[p] < 16 :=
  (bc4Sels_getElem b p).trans_lt (Nat.lt_of_le_of_lt (bc4Sel_le b p.val) (by decide))

/-- SEL0..SEL3 are rewritten from their own nibbles. -/
theorem selWords_selChannels (sel : Vector Word 4) : selWords (selChannel sel 0) (selChannel sel 1) = sel := by
  obtain ⟨h0, h1⟩ := selWords_selChannel_zero sel (selChannel sel 1)
  have hword {l : List Nat} {w : Word} (hl : l = (List.range 8).map (digit 4 w.toNat)) :
      BitVec.ofNat 32 (gather 4 l) = w := by rw [hl, ofNat_gather_nibbles]
  have h2 : (selWords (selChannel sel 0) (selChannel sel 1))[2] = sel[2] := hword (selChannel_take sel 1)
  have h3 : (selWords (selChannel sel 0) (selChannel sel 1))[3] = sel[3] := hword (selChannel_drop sel 1)
  ext i hi : 1
  match i, hi with
  | 0, _ => exact h0
  | 1, _ => exact h1
  | 2, _ => exact h2
  | 3, _ => exact h3

/-! ## The half PACK makes of one channel's registers (42_bc4_bc5.md R166, R168) -/

/-- The half of the block that PACK.BC4 and PACK.BC5 make of channel `k` of ENDP and SEL. -/
def packedHalf (endp : Word) (sel : Vector Word 4) (k : Fin 2) : Nat :=
  bc4Pack (endpByte endp (2 * k.val)) (endpByte endp (2 * k.val + 1)) (selChannel sel k)

/-- A packed half is 16 bits of ENDP below the gathered selectors. -/
theorem packedHalf_eq (endp : Word) (sel : Vector Word 4) (k : Fin 2) :
    packedHalf endp sel k = digit 16 endp.toNat k.val + gather 3 (selChannel sel k).toList * 2 ^ 16 := by
  have hlow := digit_lt 8 endp.toNat (2 * k.val)
  have hhigh := digit_lt 8 endp.toNat (2 * k.val + 1)
  rw [packedHalf, bc4Pack, gather_cons, gather_cons, gather_nil, digit_sixteen, endpByte, endpByte,
    Nat.mod_eq_of_lt hlow, Nat.mod_eq_of_lt hhigh, Nat.mul_zero, Nat.add_zero]

section
variable (endp : Word) (sel : Vector Word 4) (k : Fin 2)

theorem gather_selChannel_lt : gather 3 (selChannel sel k).toList < 2 ^ 48 := by
  simpa using gather_lt 3 (selChannel sel k).toList

theorem packedHalf_lt : packedHalf endp sel k < 2 ^ 64 := by
  have hendp := digit_lt 16 endp.toNat k.val
  have hsels := gather_selChannel_lt sel k
  rw [packedHalf_eq]; omega

/-- The low 16 bits of a packed half are the channel's endpoints. -/
theorem ofNat_packedHalf : BitVec.ofNat 16 (packedHalf endp sel k) = endp.extractLsb' (16 * k.val) 16 := by
  apply BitVec.eq_of_toNat_eq
  rw [BitVec.toNat_ofNat, packedHalf_eq, Nat.add_mul_mod_self_right, Nat.mod_eq_of_lt (digit_lt 16 _ _),
    digit_eq_extract]

/-- The upper 48 bits of a packed half are the gathered selectors. -/
theorem slice_packedHalf : slice 63 16 (packedHalf endp sel k) = gather 3 (selChannel sel k).toList := by
  have hendp := digit_lt 16 endp.toNat k.val
  have hsels := gather_selChannel_lt sel k
  rw [packedHalf_eq, slice, Nat.add_mul_div_right _ _ (Nat.two_pow_pos 16), Nat.div_eq_of_lt hendp, Nat.zero_add]
  exact Nat.mod_eq_of_lt hsels

/-- The two low bytes of a packed half are bytes of ENDP. -/
theorem packedHalf_endpoint_byte {i : Nat} (h : i < 2) :
    BitVec.ofNat 8 (digit 8 (packedHalf endp sel k) i) = endp.extractLsb' (8 * (2 * k.val + i)) 8 := by
  have hlow : digit 8 (packedHalf endp sel k) i = digit 8 (digit 16 endp.toNat k.val) i := by
    rw [packedHalf_eq]; exact digit_add_of_lt h 8 _ _
  have hbyte : digit 8 (digit 16 endp.toNat k.val) i = digit 8 endp.toNat (2 * k.val + i) := digit_digit h 8 _ _
  rw [hlow, hbyte, ofNat_digit_eq_byteOfWord, byteOfWord_eq_extract]

end

section
variable (endp : Word) {sel : Vector Word 4} {k : Fin 2} (hsel : ∀ p, selNibble sel k p ≤ 7)
include hsel

/-- Sixteen selectors of three bits as a sum of powers. -/
theorem gather_selChannel_three :
    gather 3 (selChannel sel k).toList = ∑ p : Fin 16, selNibble sel k p * 2 ^ (3 * p.val) := by
  rw [selChannel, Vector.toList_ofFn, gather_ofFn _ _ _ fun p => Nat.lt_succ_of_le (hsel p)]

/-- The six upper bytes of a packed half are those of the sum of the selectors. -/
theorem packedHalf_selector_byte (j : Nat) :
    (BitVec.ofNat 8 (digit 8 (packedHalf endp sel k) (2 + j))).toNat =
      (∑ p : Fin 16, selNibble sel k p * 2 ^ (3 * p.val)) / 2 ^ (8 * j) % 256 := by
  have hendp := digit_lt 16 endp.toNat k.val
  rw [BitVec.toNat_ofNat, Nat.mod_eq_of_lt (digit_lt 8 _ _), packedHalf_eq, digit_add_of_ge (n := 2) hendp,
    gather_selChannel_three hsel]
  rfl

/-- Selectors 0..7 are read back from the half they were packed into. -/
theorem bc4Sels_packedHalf : bc4Sels (packedHalf endp sel k) = selChannel sel k := by
  ext p hp
  calc (bc4Sels (packedHalf endp sel k))[p]
    _ = digit 3 (slice 63 16 (packedHalf endp sel k)) p := bc4Sels_getElem _ ⟨p, hp⟩
    _ = (selChannel sel k)[p] % 8 := by rw [slice_packedHalf, digit_gather]; simp [List.getD, hp]
    _ = (selChannel sel k)[p] := by
      rw [selChannel_getElem]; exact Nat.mod_eq_of_lt (Nat.lt_succ_of_le (hsel ⟨p, hp⟩))

end

/-- Registers that hold the fields of a half pack to that half. -/
theorem packedHalf_of_fields {endp : Word} {sel : Vector Word 4} {k : Fin 2} {b : Nat} (hb : b < 2 ^ 64)
    (hendp : digit 16 endp.toNat k.val = b % 2 ^ 16) (hsel : selChannel sel k = bc4Sels b) :
    packedHalf endp sel k = b := by
  rw [packedHalf_eq, hendp, hsel, gather_bc4Sels]
  omega

/-! ## The checks (42_bc4_bc5.md R166 to R169) -/

theorem checkOf_packBc4 {s : State} (h : Ready .bc4 s) : checkOf .packBc4 s = selectorCheck 7 0 s := by
  rw [checkOf, (dataChecks_success .bc4 s).2 h, andThen_success]

theorem checkOf_packBc4_success {s : State} (h : Ready .bc4 s) (hsel : ∀ p, selNibble s.sel 0 p ≤ 7) :
    checkOf .packBc4 s = .success :=
  (checkOf_packBc4 h).trans ((selectorCheck_success 7 0 s).2 hsel)

theorem checkOf_packBc5 {s : State} (h : Ready .bc5 s) :
    checkOf .packBc5 s = (selectorCheck 7 0 s).andThen (selectorCheck 7 1 s) := by
  rw [checkOf, (dataChecks_success .bc5 s).2 h, andThen_success]

theorem checkOf_packBc5_success {s : State} (h : Ready .bc5 s) (hsel : ∀ k p, selNibble s.sel k p ≤ 7) :
    checkOf .packBc5 s = .success :=
  (checkOf_packBc5 h).trans ((andThen_eq_success _ _).2
    ⟨(selectorCheck_success 7 0 s).2 (hsel 0), (selectorCheck_success 7 1 s).2 (hsel 1)⟩)

/-- A selector above 7 in either channel fails PACK.BC5: the first channel's check decides, or else the second's. -/
theorem checkOf_packBc5_badParameter {s : State} (h : Ready .bc5 s) (hbad : ∃ k p, 7 < selNibble s.sel k p) :
    checkOf .packBc5 s = .badParameter := by
  rw [checkOf_packBc5 h]
  obtain ⟨k, p, hp⟩ := hbad
  by_cases h0 : ∃ q, 7 < selNibble s.sel 0 q
  · rw [selectorCheck_badParameter h0]; rfl
  · have hk : k = 1 := by
      by_contra hne
      obtain rfl : k = 0 := by omega
      exact h0 ⟨p, hp⟩
    subst hk
    rw [(selectorCheck_success 7 0 s).2 fun q => Nat.le_of_not_lt fun hq => h0 ⟨q, hq⟩, andThen_success]
    exact selectorCheck_badParameter ⟨p, hp⟩

theorem checkOf_unpackBc4 {s : State} (h : Ready .bc4 s) : checkOf .unpackBc4 s = .success :=
  (dataChecks_success .bc4 s).2 h

theorem checkOf_unpackBc5 {s : State} (h : Ready .bc5 s) : checkOf .unpackBc5 s = .success :=
  (dataChecks_success .bc5 s).2 h

/-! ## What PACK and UNPACK write (42_bc4_bc5.md R166 to R169) -/

theorem effectOf_packBc4_block (s : State) :
    (effectOf .packBc4 s).block = blockOf (packedHalf s.endp s.sel 0) 0 := rfl

theorem effectOf_packBc5_block (s : State) :
    (effectOf .packBc5 s).block = blockOf (packedHalf s.endp s.sel 0) (packedHalf s.endp s.sel 1) := rfl

theorem effectOf_unpackBc4_endp (s : State) :
    (effectOf .unpackBc4 s).endp = (0 : Half) ++ BitVec.ofNat 16 (blockLow s.block) := endpOfBc4_half _

theorem effectOf_unpackBc4_sel (s : State) :
    (effectOf .unpackBc4 s).sel = selWords (bc4Sels (blockLow s.block)) noSelectors := rfl

theorem effectOf_unpackBc5_endp (s : State) :
    (effectOf .unpackBc5 s).endp = BitVec.ofNat 16 (blockHigh s.block) ++ BitVec.ofNat 16 (blockLow s.block) :=
  endpOfBc5_halves _ _

theorem effectOf_unpackBc5_sel (s : State) :
    (effectOf .unpackBc5 s).sel = selWords (bc4Sels (blockLow s.block)) (bc4Sels (blockHigh s.block)) := rfl

/-! ## PACK and UNPACK undo each other (42_bc4_bc5.md R170) -/

theorem digit_append_halves (lo hi : Half) :
    digit 16 (hi ++ lo).toNat 0 = lo.toNat ∧ digit 16 (hi ++ lo).toNat 1 = hi.toNat := by
  have hlo := lo.isLt
  have hhi := hi.isLt
  simp only [toNat_append_halves, digit]
  omega

/-- The registers of channel 0 that UNPACK.BC4 leaves pack to the half they came from. -/
theorem packedHalf_unpackBc4 (s : State) :
    packedHalf (effectOf .unpackBc4 s).endp (effectOf .unpackBc4 s).sel 0 = blockLow s.block := by
  apply packedHalf_of_fields (blockLow_lt s.block)
  · rw [effectOf_unpackBc4_endp]
    exact (digit_append_halves _ _).1.trans (BitVec.toNat_ofNat _ _)
  · rw [effectOf_unpackBc4_sel, selChannel_selWords_zero (bc4Sels_lt_sixteen _)]

/-- The registers that UNPACK.BC5 leaves pack to the halves they came from. -/
theorem packedHalf_unpackBc5 (s : State) :
    packedHalf (effectOf .unpackBc5 s).endp (effectOf .unpackBc5 s).sel 0 = blockLow s.block ∧
    packedHalf (effectOf .unpackBc5 s).endp (effectOf .unpackBc5 s).sel 1 = blockHigh s.block := by
  rw [effectOf_unpackBc5_endp, effectOf_unpackBc5_sel]
  obtain ⟨hlow, hhigh⟩ :=
    digit_append_halves (BitVec.ofNat 16 (blockLow s.block)) (BitVec.ofNat 16 (blockHigh s.block))
  exact ⟨packedHalf_of_fields (blockLow_lt s.block) (hlow.trans (BitVec.toNat_ofNat _ _))
      (selChannel_selWords_zero (bc4Sels_lt_sixteen _) _),
    packedHalf_of_fields (blockHigh_lt s.block) (hhigh.trans (BitVec.toNat_ofNat _ _))
      (selChannel_selWords_one _ (bc4Sels_lt_sixteen _))⟩

theorem selNibble_selWords_zero_bc4Sels (a : Nat) (v : Vector Nat 16) (p : Fin 16) :
    selNibble (selWords (bc4Sels a) v) 0 p = bc4Sel a p.val := by
  rw [selNibble_selWords_zero, Nat.mod_eq_of_lt (bc4Sels_lt_sixteen a p), bc4Sels_getElem]

theorem selNibble_selWords_one_bc4Sels (v : Vector Nat 16) (b : Nat) (p : Fin 16) :
    selNibble (selWords v (bc4Sels b)) 1 p = bc4Sel b p.val := by
  rw [selNibble_selWords_one, Nat.mod_eq_of_lt (bc4Sels_lt_sixteen b p), bc4Sels_getElem]

/-- UNPACK.BC4 leaves selectors that PACK.BC4 accepts. -/
theorem selNibble_unpackBc4_le (s : State) (p : Fin 16) : selNibble (effectOf .unpackBc4 s).sel 0 p ≤ 7 := by
  rw [effectOf_unpackBc4_sel, selNibble_selWords_zero_bc4Sels]
  exact bc4Sel_le _ _

/-- UNPACK.BC5 leaves selectors that PACK.BC5 accepts. -/
theorem selNibble_unpackBc5_le (s : State) : ∀ k p, selNibble (effectOf .unpackBc5 s).sel k p ≤ 7 := by
  rw [effectOf_unpackBc5_sel, Fin.forall_fin_two]
  simp only [selNibble_selWords_zero_bc4Sels, selNibble_selWords_one_bc4Sels, bc4Sel_le, implies_true, and_self]

theorem blockLow_packBc4 (s : State) : blockLow (effectOf .packBc4 s).block = packedHalf s.endp s.sel 0 := by
  rw [effectOf_packBc4_block, blockLow_blockOf _ _ (packedHalf_lt _ _ _)]

theorem blockLow_packBc5 (s : State) : blockLow (effectOf .packBc5 s).block = packedHalf s.endp s.sel 0 := by
  rw [effectOf_packBc5_block, blockLow_blockOf _ _ (packedHalf_lt _ _ _)]

theorem blockHigh_packBc5 (s : State) : blockHigh (effectOf .packBc5 s).block = packedHalf s.endp s.sel 1 := by
  rw [effectOf_packBc5_block, blockHigh_blockOf _ _ (packedHalf_lt _ _ _)]

/-- After PACK.BC4 the block holds the endpoints of channel 0. -/
theorem endp_packBc4_unpackBc4 (s : State) :
    (effectOf .unpackBc4 (effectOf .packBc4 s)).endp = (0 : Half) ++ s.endp.extractLsb' 0 16 := by
  rw [effectOf_unpackBc4_endp, blockLow_packBc4, ofNat_packedHalf]; rfl

/-- After PACK.BC4 with selectors 0..7 the block holds the selectors of channel 0. -/
theorem sel_packBc4_unpackBc4 {s : State} (hsel : ∀ p, selNibble s.sel 0 p ≤ 7) :
    (effectOf .unpackBc4 (effectOf .packBc4 s)).sel = selWords (selChannel s.sel 0) noSelectors := by
  rw [effectOf_unpackBc4_sel, blockLow_packBc4, bc4Sels_packedHalf _ hsel]

/-- After PACK.BC5 the block holds the endpoints of both channels. -/
theorem endp_packBc5_unpackBc5 (s : State) : (effectOf .unpackBc5 (effectOf .packBc5 s)).endp = s.endp := by
  rw [effectOf_unpackBc5_endp, blockLow_packBc5, blockHigh_packBc5, ofNat_packedHalf, ofNat_packedHalf]
  exact (BitVec.extractLsb'_append_extractLsb'_eq_extractLsb' rfl).trans BitVec.extractLsb'_eq_self

/-- After PACK.BC5 with selectors 0..7 the block holds the selectors of both channels. -/
theorem sel_packBc5_unpackBc5 {s : State} (hsel : ∀ k p, selNibble s.sel k p ≤ 7) :
    (effectOf .unpackBc5 (effectOf .packBc5 s)).sel = s.sel := by
  rw [effectOf_unpackBc5_sel, blockLow_packBc5, blockHigh_packBc5, bc4Sels_packedHalf _ (hsel 0),
    bc4Sels_packedHalf _ (hsel 1), selWords_selChannels]

/-- BC4: BLOCK[0..7] is rewritten and BLOCK[8..15] zeroed. -/
theorem unpackBc4_packBc4 {s : State} (hready : Ready .bc4 s) :
    ∃ t u, exec .unpackBc4 s = .next t ∧ exec .packBc4 t = .next u ∧ Succeeded u ∧
      (∀ i : Fin 8, u.block[i.val] = s.block[i.val]) ∧ ∀ i : Fin 8, u.block[8 + i.val] = 0 := by
  have hblock : (effectOf .packBc4 (effectOf .unpackBc4 s)).block = blockOf (blockLow s.block) 0 := by
    rw [effectOf_packBc4_block, packedHalf_unpackBc4]
  have hready' : Ready .bc4 (effectOf .unpackBc4 s) := ready_effectOf (by decide) hready
  have hunpack := exec_of_checkOf (checkOf_unpackBc4 hready)
  have hpack := exec_finish_of_checkOf (checkOf_packBc4_success hready' (selNibble_unpackBc4_le s)) .success
  refine ⟨_, _, hunpack, hpack, succeeded_finish _, ?_⟩
  simp only [finish_block, hblock, blockOf_blockLow, blockOf_high_zero, implies_true, and_self]

/-- BC4: channel 0 is restored and channel 1 zeroed. -/
theorem packBc4_unpackBc4 {s : State} (hready : Ready .bc4 s) (hsel : ∀ p, selNibble s.sel 0 p ≤ 7) :
    ∃ t u, exec .packBc4 s = .next t ∧ exec .unpackBc4 t = .next u ∧ Succeeded u ∧
      u.endp = (0 : Half) ++ s.endp.extractLsb' 0 16 ∧ u.sel[0] = s.sel[0] ∧ u.sel[1] = s.sel[1] ∧
      u.sel[2] = 0 ∧ u.sel[3] = 0 := by
  obtain ⟨h0, h1⟩ := selWords_selChannel_zero s.sel noSelectors
  obtain ⟨h2, h3⟩ := selWords_noSelectors (selChannel s.sel 0)
  have hready' : Ready .bc4 (effectOf .packBc4 s) := ready_effectOf (by decide) hready
  have hpack := exec_of_checkOf (checkOf_packBc4_success hready hsel)
  have hunpack := exec_finish_of_checkOf (checkOf_unpackBc4 hready') .success
  refine ⟨_, _, hpack, hunpack, succeeded_finish _, ?_⟩
  simp only [finish_endp, finish_sel, endp_packBc4_unpackBc4, sel_packBc4_unpackBc4 hsel, h0, h1, h2, h3, and_self]

/-- BC5: the whole of BLOCK is rewritten. -/
theorem unpackBc5_packBc5 {s : State} (hready : Ready .bc5 s) :
    ∃ t u, exec .unpackBc5 s = .next t ∧ exec .packBc5 t = .next u ∧ Succeeded u ∧ u.block = s.block := by
  obtain ⟨hlow, hhigh⟩ := packedHalf_unpackBc5 s
  have hready' : Ready .bc5 (effectOf .unpackBc5 s) := ready_effectOf (by decide) hready
  have hunpack := exec_of_checkOf (checkOf_unpackBc5 hready)
  have hpack := exec_finish_of_checkOf (checkOf_packBc5_success hready' (selNibble_unpackBc5_le s)) .success
  refine ⟨_, _, hunpack, hpack, succeeded_finish _, ?_⟩
  rw [finish_block, effectOf_packBc5_block, hlow, hhigh, blockOf_halves]

/-- BC5: ENDP and SEL0..SEL3 are restored. -/
theorem packBc5_unpackBc5 {s : State} (hready : Ready .bc5 s) (hsel : ∀ k p, selNibble s.sel k p ≤ 7) :
    ∃ t u, exec .packBc5 s = .next t ∧ exec .unpackBc5 t = .next u ∧ Succeeded u ∧
      u.endp = s.endp ∧ u.sel = s.sel := by
  have hready' : Ready .bc5 (effectOf .packBc5 s) := ready_effectOf (by decide) hready
  have hpack := exec_of_checkOf (checkOf_packBc5_success hready hsel)
  have hunpack := exec_finish_of_checkOf (checkOf_unpackBc5 hready') .success
  exact ⟨_, _, hpack, hunpack, succeeded_finish _, endp_packBc5_unpackBc5 s, sel_packBc5_unpackBc5 hsel⟩

/-- Settles O60: registers that hold a half's fields pack to it (`packedHalf_of_fields`), and packed fields are read
back (`ofNat_packedHalf`, `bc4Sels_packedHalf`). -/
theorem bc4Bc5RoundTrip : Obligations.Bc4Bc5RoundTrip :=
  ⟨fun _ hready => ⟨unpackBc4_packBc4 hready, packBc4_unpackBc4 hready⟩,
    fun _ hready => ⟨unpackBc5_packBc5 hready, packBc5_unpackBc5 hready⟩⟩

/-! ## The bytes PACK writes (42_bc4_bc5.md R166, R168) -/

theorem blockOf_high (lo hi : Nat) {i : Nat} (hlow : 8 ≤ i) (hlt : i < 16) :
    (blockOf lo hi)[i] = BitVec.ofNat 8 (digit 8 hi (i - 8)) := by
  simp [blockOf, Nat.not_lt.2 hlow]

/-- Channel 0 as the bytes of the lower half. -/
theorem blockOf_packedHalf_low (endp : Word) {sel : Vector Word 4} (hsel : ∀ p, selNibble sel 0 p ≤ 7) (hi : Nat) :
    (blockOf (packedHalf endp sel 0) hi)[0] = endp.extractLsb' 0 8 ∧
    (blockOf (packedHalf endp sel 0) hi)[1] = endp.extractLsb' 8 8 ∧
    ∀ j : Fin 6, (blockOf (packedHalf endp sel 0) hi)[2 + j.val].toNat =
      (∑ p : Fin 16, selNibble sel 0 p * 2 ^ (3 * p.val)) / 2 ^ (8 * j.val) % 256 := by
  refine ⟨?_, ?_, fun j => ?_⟩
  · rw [blockOf_low _ _ (by decide)]; exact packedHalf_endpoint_byte endp sel 0 (by decide)
  · rw [blockOf_low _ _ (by decide)]; exact packedHalf_endpoint_byte endp sel 0 (by decide)
  · rw [blockOf_low _ _ (by omega)]; exact packedHalf_selector_byte endp hsel j.val

/-- Channel 1 as the bytes of the upper half. -/
theorem blockOf_packedHalf_high (endp : Word) {sel : Vector Word 4} (hsel : ∀ p, selNibble sel 1 p ≤ 7) (lo : Nat) :
    (blockOf lo (packedHalf endp sel 1))[8] = endp.extractLsb' 16 8 ∧
    (blockOf lo (packedHalf endp sel 1))[9] = endp.extractLsb' 24 8 ∧
    ∀ j : Fin 6, (blockOf lo (packedHalf endp sel 1))[10 + j.val].toNat =
      (∑ p : Fin 16, selNibble sel 1 p * 2 ^ (3 * p.val)) / 2 ^ (8 * j.val) % 256 := by
  refine ⟨?_, ?_, fun j => ?_⟩
  · rw [blockOf_high _ _ (by decide) (by decide)]; exact packedHalf_endpoint_byte endp sel 1 (by decide)
  · rw [blockOf_high _ _ (by decide) (by decide)]; exact packedHalf_endpoint_byte endp sel 1 (by decide)
  · have hbyte : 10 + j.val - 8 = 2 + j.val := by omega
    rw [blockOf_high _ _ (by omega) (by omega), hbyte]; exact packedHalf_selector_byte endp hsel j.val

/-- Settles O39: each half of the block is the packed half of its channel, and the check is that of the nibbles. -/
theorem packBc4Bc5Result : Obligations.PackBc4Bc5Result := by
  refine ⟨fun s hready => ⟨fun hsel => ?bc4, fun hbad => ?bc4Fails⟩,
    fun s hready => ⟨fun hsel => ?bc5, fun hbad => ?bc5Fails⟩⟩
  case bc4 =>
    obtain ⟨he0, he1, hsels⟩ := blockOf_packedHalf_low s.endp hsel 0
    exact completes_of_checkOf (checkOf_packBc4_success hready hsel) ⟨he0, he1, hsels, blockOf_high_zero _⟩
  case bc4Fails =>
    exact failsWith_of_checkOf ((checkOf_packBc4 hready).trans (selectorCheck_badParameter hbad)) (by decide)
  case bc5 =>
    obtain ⟨ha0, ha1, hselsA⟩ := blockOf_packedHalf_low s.endp (hsel 0) (packedHalf s.endp s.sel 1)
    obtain ⟨hb0, hb1, hselsB⟩ := blockOf_packedHalf_high s.endp (hsel 1) (packedHalf s.endp s.sel 0)
    exact completes_of_checkOf (checkOf_packBc5_success hready hsel) ⟨ha0, ha1, hselsA, hb0, hb1, hselsB⟩
  case bc5Fails => exact failsWith_of_checkOf (checkOf_packBc5_badParameter hready hbad) (by decide)

/-! ## What UNPACK reads from the bytes (30_encoding.md R77, R78; 42_bc4_bc5.md R167, R169) -/

theorem bc4Endpoints_blockLow (b : Vector Byte 16) :
    bc4E0 (blockLow b) = b[0].toNat ∧ bc4E1 (blockLow b) = b[1].toNat :=
  ⟨digit_blockLow b 0 (by decide), digit_blockLow b 1 (by decide)⟩

theorem bc4Endpoints_blockHigh (b : Vector Byte 16) :
    bc4E0 (blockHigh b) = b[8].toNat ∧ bc4E1 (blockHigh b) = b[9].toNat :=
  ⟨digit_blockHigh b 0 (by decide), digit_blockHigh b 1 (by decide)⟩

/-- The selector of pixel `p` is three bits of the number that BLOCK[2..7] make. -/
theorem bc4Sel_blockLow (b : Vector Byte 16) (p : Fin 16) : bc4Sel (blockLow b) p.val =
    (∑ j : Fin 6, b[2 + j.val].toNat * 2 ^ (8 * j.val)) / 2 ^ (3 * p.val) % 8 := by
  have hbyte (j : Fin 6) : digit 8 (blockLow b) (2 + j.val) = b[2 + j.val].toNat := digit_blockLow b _ (by omega)
  rw [bc4Sel, slice_selectors_eq_sum]
  simp only [hbyte]
  rfl

/-- The selector of pixel `p` of the second half is three bits of the number that BLOCK[10..15] make. -/
theorem bc4Sel_blockHigh (b : Vector Byte 16) (p : Fin 16) : bc4Sel (blockHigh b) p.val =
    (∑ j : Fin 6, b[10 + j.val].toNat * 2 ^ (8 * j.val)) / 2 ^ (3 * p.val) % 8 := by
  have hbyte (j : Fin 6) : digit 8 (blockHigh b) (2 + j.val) = b[10 + j.val].toNat := by
    have hindex : 8 + (2 + j.val) = 10 + j.val := by omega
    rw [digit_blockHigh b _ (by omega)]
    simp only [hindex]
  rw [bc4Sel, slice_selectors_eq_sum]
  simp only [hbyte]
  rfl

theorem bc4Values_getElem (b : Nat) (p : Fin 16) :
    (bc4Values b)[p] = (bc4Pal (bc4E0 b) (bc4E1 b)).getD (bc4Sel b p.val) 0 := by
  rw [bc4Values, Fin.getElem_fin, Vector.getElem_ofFn]; rfl

theorem effectOf_unpackBc4_out (s : State) (p : Fin 16) :
    (effectOf .unpackBc4 s).out[p] = wordOfPixel ⟨(bc4Values (blockLow s.block))[p], 0, 0, 255⟩ := by
  simp [effectOf, outWords, bc4Decode]

theorem effectOf_unpackBc5_out (s : State) (p : Fin 16) : (effectOf .unpackBc5 s).out[p] =
    wordOfPixel ⟨(bc4Values (blockLow s.block))[p], (bc4Values (blockHigh s.block))[p], 0, 255⟩ := by
  simp [effectOf, outWords, bc5Decode]

/-- Settles O41: the fields of each half's number in terms of its bytes. -/
theorem unpackBc4Bc5Result : Obligations.UnpackBc4Bc5Result := by
  refine ⟨fun s hready => ?bc4, fun s hready => ?bc5⟩
  case bc4 =>
    obtain ⟨he0, he1⟩ := bc4Endpoints_blockLow s.block
    refine completes_of_checkOf (checkOf_unpackBc4 hready) ⟨?_, fun p => ⟨?_, ?_, ?_⟩⟩
    · rw [finish_endp, effectOf_unpackBc4_endp, ofNat_blockLow, append_append_bytes]
    · rw [finish_sel, effectOf_unpackBc4_sel, selNibble_selWords_zero_bc4Sels, bc4Sel_blockLow]
    · rw [finish_sel, effectOf_unpackBc4_sel, selNibble_selWords_one, Fin.getElem_fin, noSelectors_getElem]
    · rw [finish_out, effectOf_unpackBc4_out, bc4Values_getElem, he0, he1, bc4Sel_blockLow]
  case bc5 =>
    obtain ⟨ha0, ha1⟩ := bc4Endpoints_blockLow s.block
    obtain ⟨hb0, hb1⟩ := bc4Endpoints_blockHigh s.block
    refine completes_of_checkOf (checkOf_unpackBc5 hready) ⟨?_, fun p => ⟨?_, ?_, ?_⟩⟩
    · rw [finish_endp, effectOf_unpackBc5_endp, ofNat_blockLow, ofNat_blockHigh, append_append_bytes]
    · rw [finish_sel, effectOf_unpackBc5_sel, selNibble_selWords_zero_bc4Sels, bc4Sel_blockLow]
    · rw [finish_sel, effectOf_unpackBc5_sel, selNibble_selWords_one_bc4Sels, bc4Sel_blockHigh]
    · rw [finish_out, effectOf_unpackBc5_out, bc4Values_getElem, bc4Values_getElem, ha0, ha1, hb0, hb1,
        bc4Sel_blockLow, bc4Sel_blockHigh]

/-! ## The palette and the search window (42_bc4_bc5.md R162 to R164; 44_quantizer.md R241) -/

theorem bc4Pal_eight {e0 e1 : Nat} (h : e0 > e1) : bc4Pal e0 e1 =
    [e0, e1, (6 * e0 + e1) / 7, (5 * e0 + 2 * e1) / 7, (4 * e0 + 3 * e1) / 7, (3 * e0 + 4 * e1) / 7,
      (2 * e0 + 5 * e1) / 7, (e0 + 6 * e1) / 7] := by
  rw [bc4Pal, if_pos h]
  simp [bc4Pal8]

theorem bc4Pal_six {e0 e1 : Nat} (h : e0 ≤ e1) : bc4Pal e0 e1 =
    [e0, e1, (4 * e0 + e1) / 5, (3 * e0 + 2 * e1) / 5, (2 * e0 + 3 * e1) / 5, (e0 + 4 * e1) / 5, 0, 255] := by
  rw [bc4Pal, if_neg (Nat.not_lt.2 h)]
  simp [bc4Pal6]

/-- Every entry is an endpoint, a weighted mean of the two, or a sentinel. -/
theorem bc4Pal_le {e0 e1 : Nat} (h0 : e0 ≤ 255) (h1 : e1 ≤ 255) : ∀ x ∈ bc4Pal e0 e1, x ≤ 255 := by
  rcases Nat.lt_or_ge e1 e0 with h | h
  · rw [bc4Pal_eight h]
    simp only [List.forall_mem_cons, List.not_mem_nil, false_implies, implies_true, and_true]
    omega
  · rw [bc4Pal_six h]
    simp only [List.forall_mem_cons, List.not_mem_nil, false_implies, implies_true, and_true]
    omega

/-- The subtraction that stops at 0 is the clamp at 0. -/
theorem windowValue_eq_clamp (x r i : Nat) :
    windowValue x r i = (min (max ((x : Int) - r + i) 0) 255).toNat := by
  unfold windowValue; omega

/-- Settles O47: the two palettes by their formulas, their range, and the window by its clamp. -/
theorem bc4PaletteAndWindow : Obligations.Bc4PaletteAndWindow := by
  refine ⟨fun _ _ => bc4Pal_eight, fun _ _ => bc4Pal_six, fun _ _ => bc4Pal_le, fun mx mn r => ?_⟩
  simp only [bc4Candidates, windowValue_eq_clamp]

end Sys2Proof.Machine
end

section
/-! Proofs about UNPACK.BC7 (43_bc7.md): what the parse, the endpoints, the indices and the pixels of a block are in the
bits of its number, for every row of the mode table at once, and the two statements on the decode. -/

namespace Sys2Proof.Machine

/-! ## The mode in BLOCK[0] (43_bc7.md R182, R194) -/

theorem blockBits_mod_256 (blk : Vector Byte 16) : blockBits blk % 2 ^ 8 = blk[0].toNat := by
  have hbyte : (blk.toList.map BitVec.toNat).getD 0 0 = blk[0].toNat := by
    rw [List.getD, List.getElem?_eq_getElem (by simp)]; simp
  rw [← digit_zero, blockBits, digit_gather, hbyte]
  exact Nat.mod_eq_of_lt blk[0].isLt

/-- BLOCK[0] holds all the bits that select the mode. -/
theorem bc7ModeOf_blockBits {blk : Vector Byte 16} {m : Nat} (hm : m < 8)
    (h : blk[0].toNat % 2 ^ (m + 1) = 2 ^ m) : bc7ModeOf (blockBits blk) = some m := by
  refine bc7ModeOf_eq _ m hm ?_
  rwa [← blockBits_mod_256, Nat.mod_mod_of_dvd _ (Nat.pow_dvd_pow 2 (by omega))] at h

/-- The reserved mode: no bit of BLOCK[0] is 1. -/
theorem bc7ModeOf_reserved {blk : Vector Byte 16} (h : blk[0] = 0) : bc7ModeOf (blockBits blk) = none := by
  have hzero : blockBits blk % 2 ^ 8 = 0 := by rw [blockBits_mod_256, h]; rfl
  refine List.find?_eq_none.2 fun m hm => ?_
  have hbit := Nat.testBit_mod_two_pow (blockBits blk) 8 m
  rw [hzero, Nat.zero_testBit, Nat.testBit_eq_decide_div_mod_eq] at hbit
  simpa [List.mem_range.1 hm] using hbit.symm

/-- A block with one of the bits 3:0 of BLOCK[0] set has one of the modes 0 to 3. -/
theorem exists_mode_lt_four {blk : Vector Byte 16} (h : blk[0].toNat % 16 ≠ 0) :
    ∃ m < 4, bc7ModeOf (blockBits blk) = some m := by
  have hlow : blk[0].toNat % 2 = 1 ∨ blk[0].toNat % 4 = 2 ∨ blk[0].toNat % 8 = 4 ∨ blk[0].toNat % 16 = 8 := by omega
  rcases hlow with h | h | h | h
  · exact ⟨0, by decide, bc7ModeOf_blockBits (by decide) h⟩
  · exact ⟨1, by decide, bc7ModeOf_blockBits (by decide) h⟩
  · exact ⟨2, by decide, bc7ModeOf_blockBits (by decide) h⟩
  · exact ⟨3, by decide, bc7ModeOf_blockBits (by decide) h⟩

theorem bc7Decode_reserved {b : Nat} (h : bc7ModeOf b = none) : bc7Decode b = Vector.replicate 16 ⟨0, 0, 0, 0⟩ := by
  rw [bc7Decode, h]

theorem bc7Decode_getElem {b m : Nat} (h : bc7ModeOf b = some m) (p : Fin 16) :
    (bc7Decode b)[p] = bc7Pixel (bc7Mode m) (bc7Parse m b) p.val := by
  simp [bc7Decode, h]

/-! ## Consecutive fields (43_bc7.md R181) -/

/-- The `n` bits of `b` from bit `pos` on. -/
def bitField (b pos n : Nat) : Nat := b / 2 ^ pos % 2 ^ n

theorem bitField_lt (b pos n : Nat) : bitField b pos n < 2 ^ n := Nat.mod_lt _ (Nat.two_pow_pos _)

theorem bitField_zero (b pos : Nat) : bitField b pos 0 = 0 := Nat.mod_one _

theorem readFields_length (b pos : Nat) (ws : List Nat) : (readFields b pos ws).length = ws.length := by
  induction ws generalizing pos with
  | nil => rfl
  | cons w ws ih => simp [readFields, ih]

theorem readFields_append (b pos : Nat) (ws vs : List Nat) :
    readFields b pos (ws ++ vs) = readFields b pos ws ++ readFields b (pos + ws.sum) vs := by
  induction ws generalizing pos with
  | nil => simp [readFields]
  | cons w ws ih => simp [readFields, ih, Nat.add_assoc]

/-- Fields of one width are evenly spaced. -/
theorem readFields_replicate_getD (b pos w : Nat) {n k : Nat} (h : k < n) :
    (readFields b pos (List.replicate n w)).getD k 0 = bitField b (pos + w * k) w := by
  have hsum : ((List.replicate n w).take k).sum = w * k := by
    rw [List.take_replicate, List.sum_replicate, Nat.min_eq_left h.le, smul_eq_mul, Nat.mul_comm]
  rw [readFields_getD, hsum, List.getD_replicate _ h]; rfl

/-- The index of pixel `p` among indices of `n` bits from bit `start` on, one bit fewer at an anchor
(43_bc7.md R189). -/
def indexAt (b : Nat) (anchors : List Nat) (start n p : Nat) : Nat :=
  bitField b (start + n * p - (anchors.filter (· < p)).length) (if p ∈ anchors then n - 1 else n)

theorem length_filter_lt_le {l : List Nat} (hl : l.Nodup) (p : Nat) : (l.filter (· < p)).length ≤ p := by
  have hsub : (l.filter (· < p)) ⊆ List.range p := fun q hq => by simpa using (List.mem_filter.1 hq).2
  simpa using ((hl.filter _).subperm hsub).length_le

theorem readFields_indices_getD (b pos : Nat) {anchors : List Nat} (hnodup : anchors.Nodup) {n p : Nat} (hn : 1 ≤ n)
    (hp : p < 16) :
    (readFields b pos ((List.range 16).map fun q => if q ∈ anchors then n - 1 else n)).getD p 0 =
      indexAt b anchors pos n p := by
  have htake : ((List.range 16).map fun q => if q ∈ anchors then n - 1 else n).take p =
      (List.range p).map fun q => if q ∈ anchors then n - 1 else n := by
    rw [← List.map_take, List.take_range, Nat.min_eq_left hp.le]
  have hwidth : ((List.range 16).map fun q => if q ∈ anchors then n - 1 else n).getD p 0 =
      if p ∈ anchors then n - 1 else n := by
    simp [List.getD, hp]
  have hle : (anchors.filter (· < p)).length ≤ n * p :=
    (length_filter_lt_le hnodup p).trans (Nat.le_mul_of_pos_left p hn)
  rw [readFields_getD, htake, hwidth, sum_index_widths anchors hnodup n hn, ← Nat.add_sub_assoc hle]; rfl

/-! ## The layout of a mode (30_encoding.md R81; 43_bc7.md R183, R184, R189) -/

/-- Alpha endpoints of a mode. -/
def alphaCount (md : Bc7Mode) : Nat := if md.ab = 0 then 0 else 2 * md.ns

/-- Where the colour endpoints of mode `m` begin. -/
def colourPos (m : Nat) : Nat := m + 1 + (bc7Mode m).pb + (bc7Mode m).rb + (bc7Mode m).isb
/-- Where the alpha endpoints begin. -/
def alphaPos (m : Nat) : Nat := colourPos m + 6 * (bc7Mode m).ns * (bc7Mode m).cb
/-- Where the p-bits begin. -/
def pbitPos (m : Nat) : Nat := alphaPos m + alphaCount (bc7Mode m) * (bc7Mode m).ab
/-- Where the primary indices begin. -/
def primaryPos (m : Nat) : Nat := pbitPos m + pbitCount (bc7Mode m)
/-- Where the secondary indices begin. -/
def secondaryPos (m : Nat) : Nat := primaryPos m + ((bc7Mode m).ib * 16 - (bc7Mode m).ns)

theorem primaryWidths_length (md : Bc7Mode) (part : Nat) : (primaryWidths md part).length = 16 := by
  simp [primaryWidths]

theorem secondaryWidths_length_le (md : Bc7Mode) : (secondaryWidths md).length ≤ 16 := by
  unfold secondaryWidths; split <;> simp

/-- The fields of a block, each kind from its own position on. -/
theorem readFields_bc7Widths {m : Nat} (hm : m < 8) (b part : Nat) :
    readFields b (m + 1) (bc7Widths (bc7Mode m) part) =
      [bitField b (m + 1) (bc7Mode m).pb, bitField b (m + 1 + (bc7Mode m).pb) (bc7Mode m).rb,
        bitField b (m + 1 + (bc7Mode m).pb + (bc7Mode m).rb) (bc7Mode m).isb] ++
      readFields b (colourPos m) (List.replicate (6 * (bc7Mode m).ns) (bc7Mode m).cb) ++
      readFields b (alphaPos m) (List.replicate (alphaCount (bc7Mode m)) (bc7Mode m).ab) ++
      readFields b (pbitPos m) (List.replicate (pbitCount (bc7Mode m)) 1) ++
      readFields b (primaryPos m) (primaryWidths (bc7Mode m) part) ++
      readFields b (secondaryPos m) (secondaryWidths (bc7Mode m)) := by
  obtain ⟨hlow, hhigh, hib⟩ := bc7Mode_bounds m hm
  simp only [bc7Widths, readFields_append, List.sum_append, List.sum_replicate, List.sum_cons, List.sum_nil,
    primaryWidths_sum hlow hhigh hib, smul_eq_mul, Nat.mul_one, Nat.add_zero, readFields, secondaryPos, primaryPos,
    pbitPos, alphaPos, colourPos, alphaCount, bitField, Nat.add_assoc]

/-- The parse of a block, field by field. -/
theorem bc7Parse_eq {m : Nat} (hm : m < 8) (b : Nat) : bc7Parse m b =
    { part := bc7PartOf m b
      rot := bitField b (m + 1 + (bc7Mode m).pb) (bc7Mode m).rb
      isel := bitField b (m + 1 + (bc7Mode m).pb + (bc7Mode m).rb) (bc7Mode m).isb
      colour := readFields b (colourPos m) (List.replicate (6 * (bc7Mode m).ns) (bc7Mode m).cb)
      alpha := readFields b (alphaPos m) (List.replicate (alphaCount (bc7Mode m)) (bc7Mode m).ab)
      pbits := readFields b (pbitPos m) (List.replicate (pbitCount (bc7Mode m)) 1)
      i1 := readFields b (primaryPos m) (primaryWidths (bc7Mode m) (bc7PartOf m b))
      i2 := readFields b (secondaryPos m) (secondaryWidths (bc7Mode m)) } := by
  have hlast : (readFields b (secondaryPos m) (secondaryWidths (bc7Mode m))).length ≤ 16 :=
    (readFields_length _ _ _).trans_le (secondaryWidths_length_le _)
  have hcount : (if (bc7Mode m).ab = 0 then 0 else 2 * (bc7Mode m).ns) = alphaCount (bc7Mode m) := rfl
  simp only [bc7Parse, readFields_bc7Widths hm, hcount, ← List.drop_drop, List.append_assoc, List.drop_left',
    List.take_left', List.take_of_length_le hlast, readFields_length, primaryWidths_length, List.length_replicate,
    List.length_cons, List.length_nil, Nat.zero_add, Nat.reduceAdd]
  rfl

/-! ## Endpoints (43_bc7.md R184, R185) -/

/-- Bit replication of an `n`-bit value to 8 bits, as arithmetic. -/
def replicated (v n : Nat) : Nat := if n = 8 then v else 2 ^ (8 - n) * v + v / 2 ^ (2 * n - 8)

theorem unq_eq {v n : Nat} (hv : v < 2 ^ n) (hlow : 4 ≤ n) (hhigh : n ≤ 8) : unq v n = replicated v n := by
  have hpow : 2 ^ (8 - n) * 2 ^ (2 * n - 8) = 2 ^ n := by rw [← Nat.pow_add]; congr 1; omega
  have hlt : v >>> (2 * n - 8) < 2 ^ (8 - n) := by
    rw [Nat.shiftRight_eq_div_pow]
    exact Nat.div_lt_of_lt_mul (by rwa [Nat.mul_comm, hpow])
  rw [unq, replicated, ← Nat.shiftLeft_add_eq_or_of_lt hlt, Nat.shiftLeft_eq, Nat.shiftRight_eq_div_pow, Nat.mul_comm]

/-- Appending a p-bit below a value. -/
theorem shiftLeft_or_bit (v b pos : Nat) : v <<< 1 ||| bitField b pos 1 = 2 * v + bitField b pos 1 := by
  rw [← Nat.shiftLeft_add_eq_or_of_lt (bitField_lt b pos 1), Nat.shiftLeft_eq, Nat.mul_comm]

/-- The 8-bit value of a stored one of `n` bits in endpoint `k`, with the p-bit of that endpoint or of its subset. -/
def withPBitAt (m b k v n : Nat) : Nat :=
  match (bc7Mode m).pbits with
  | .absent => replicated v n
  | .perEndpoint => replicated (2 * v + bitField b (pbitPos m + k) 1) (n + 1)
  | .perSubset => replicated (2 * v + bitField b (pbitPos m + k / 2) 1) (n + 1)

/-- Endpoint `k` = 2s + e of channel `c`. -/
def endpointAt (m b k c : Nat) : Nat :=
  if c = 3 then
    if (bc7Mode m).ab = 0 then 255
    else withPBitAt m b k (bitField b (alphaPos m + (bc7Mode m).ab * k) (bc7Mode m).ab) (bc7Mode m).ab
  else
    withPBitAt m b k (bitField b (colourPos m + 2 * (bc7Mode m).ns * (bc7Mode m).cb * c + (bc7Mode m).cb * k)
      (bc7Mode m).cb) (bc7Mode m).cb

/-- What bit replication needs of the mode table: with its p-bit a stored value has 4 to 8 bits. -/
theorem bc7Mode_widths : ∀ m < 8, 4 ≤ (bc7Mode m).cb ∧ (bc7Mode m).cb ≤ 7 ∧
    ((bc7Mode m).ab ≠ 0 → 4 ≤ (bc7Mode m).ab ∧ (bc7Mode m).ab ≤ 8 ∧
      ((bc7Mode m).pbits ≠ .absent → (bc7Mode m).ab ≤ 7)) := by
  decide

/-- Where a mode has alpha bits and as many as colour bits, alpha is a fourth channel. -/
theorem endpointAt_of_ab_eq_cb {m : Nat} (hzero : (bc7Mode m).ab ≠ 0) (h : (bc7Mode m).ab = (bc7Mode m).cb)
    (b k c : Nat) : endpointAt m b k c =
      withPBitAt m b k (bitField b (colourPos m + 2 * (bc7Mode m).ns * (bc7Mode m).cb * c + (bc7Mode m).cb * k)
        (bc7Mode m).cb) (bc7Mode m).cb := by
  rw [endpointAt]
  by_cases hc : c = 3
  · have hpos : alphaPos m = colourPos m + 2 * (bc7Mode m).ns * (bc7Mode m).cb * c := by rw [alphaPos, hc]; ring
    rw [if_pos hc, if_neg hzero, hpos, h]
  · rw [if_neg hc]

section
variable {m : Nat} (hm : m < 8) (b : Nat) {s e : Nat} (hs : s < (bc7Mode m).ns) (he : e < 2)
include hm hs he

theorem withPBit_eq {v n : Nat} (hv : v < 2 ^ n) (hlow : 4 ≤ n) (hhigh : n ≤ 8)
    (hp : (bc7Mode m).pbits ≠ .absent → n ≤ 7) :
    withPBit (bc7Mode m) (bc7Parse m b) s e v n = withPBitAt m b (2 * s + e) v n := by
  have hbit (pos : Nat) : 2 * v + bitField b pos 1 < 2 ^ (n + 1) := by
    have := bitField_lt b pos 1
    omega
  have hpbit {k : Nat} (hk : k < pbitCount (bc7Mode m)) :
      (bc7Parse m b).pbits.getD k 0 = bitField b (pbitPos m + k) 1 := by
    rw [bc7Parse_eq hm]
    simpa using readFields_replicate_getD b (pbitPos m) 1 hk
  unfold withPBit withPBitAt
  cases hkind : (bc7Mode m).pbits with
  | absent => exact unq_eq hv hlow hhigh
  | perEndpoint =>
    have hk : 2 * s + e < pbitCount (bc7Mode m) := by simp only [pbitCount, hkind]; omega
    have hn : n ≤ 7 := hp (by rw [hkind]; decide)
    simp only [hpbit hk, shiftLeft_or_bit]
    exact unq_eq (hbit _) (by omega) (by omega)
  | perSubset =>
    have hk : s < pbitCount (bc7Mode m) := by simpa only [pbitCount, hkind]
    have hsub : (2 * s + e) / 2 = s := by omega
    have hn : n ≤ 7 := hp (by rw [hkind]; decide)
    simp only [hpbit hk, shiftLeft_or_bit, hsub]
    exact unq_eq (hbit _) (by omega) (by omega)

theorem bc7Colour_eq {c : Nat} (hc : c < 3) :
    bc7Colour (bc7Mode m) (bc7Parse m b) s e c = endpointAt m b (2 * s + e) c := by
  obtain ⟨hlow, hhigh, _⟩ := bc7Mode_widths m hm
  have hk : (c * (bc7Mode m).ns + s) * 2 + e < 6 * (bc7Mode m).ns := by interval_cases c <;> omega
  have hpos : colourPos m + (bc7Mode m).cb * ((c * (bc7Mode m).ns + s) * 2 + e) =
      colourPos m + 2 * (bc7Mode m).ns * (bc7Mode m).cb * c + (bc7Mode m).cb * (2 * s + e) := by ring
  have hcolour : (bc7Parse m b).colour.getD ((c * (bc7Mode m).ns + s) * 2 + e) 0 =
      bitField b (colourPos m + 2 * (bc7Mode m).ns * (bc7Mode m).cb * c + (bc7Mode m).cb * (2 * s + e))
        (bc7Mode m).cb := by
    rw [bc7Parse_eq hm, ← hpos]
    exact readFields_replicate_getD b (colourPos m) _ hk
  rw [bc7Colour, hcolour, withPBit_eq hm b hs he (bitField_lt _ _ _) hlow (by omega) fun _ => hhigh, endpointAt,
    if_neg (by omega)]

theorem bc7Alpha_eq : bc7Alpha (bc7Mode m) (bc7Parse m b) s e = endpointAt m b (2 * s + e) 3 := by
  obtain ⟨_, _, hwidth⟩ := bc7Mode_widths m hm
  rw [bc7Alpha, endpointAt, if_pos rfl]
  split
  · rfl
  · next hzero =>
    obtain ⟨hlow, hhigh, hp⟩ := hwidth hzero
    have hk : 2 * s + e < alphaCount (bc7Mode m) := by rw [alphaCount, if_neg hzero]; omega
    have halpha : (bc7Parse m b).alpha.getD (2 * s + e) 0 =
        bitField b (alphaPos m + (bc7Mode m).ab * (2 * s + e)) (bc7Mode m).ab := by
      rw [bc7Parse_eq hm]
      exact readFields_replicate_getD b (alphaPos m) _ hk
    rw [halpha, withPBit_eq hm b hs he (bitField_lt _ _ _) hlow hhigh hp]

end

/-! ## Indices and weights (43_bc7.md R186, R189, R191) -/

theorem bc7Parse_i1_getD {m : Nat} (hm : m < 8) (b : Nat) {anchors : List Nat} (hnodup : anchors.Nodup)
    (hanchor : ∀ p, bc7IsAnchor (bc7Mode m).ns (bc7PartOf m b) p = decide (p ∈ anchors)) {p : Nat} (hp : p < 16) :
    (bc7Parse m b).i1.getD p 0 = indexAt b anchors (primaryPos m) (bc7Mode m).ib p := by
  obtain ⟨_, _, hib⟩ := bc7Mode_bounds m hm
  rw [bc7Parse_eq hm]
  simpa only [primaryWidths, hanchor, decide_eq_true_eq] using
    readFields_indices_getD b (primaryPos m) hnodup hib hp

theorem bc7Parse_i2_getD {m : Nat} (hm : m < 8) (b : Nat) (hib2 : (bc7Mode m).ib2 ≠ 0) {p : Nat} (hp : p < 16) :
    (bc7Parse m b).i2.getD p 0 = indexAt b [0] (secondaryPos m) (bc7Mode m).ib2 p := by
  rw [bc7Parse_eq hm]
  simpa only [secondaryWidths, if_neg hib2, List.mem_singleton] using
    readFields_indices_getD b (secondaryPos m) (List.nodup_singleton 0) (Nat.one_le_iff_ne_zero.2 hib2) hp

/-- The weight of the primary index of pixel `p` in a mode of one subset. -/
def primaryWeight (m b p : Nat) : Nat := weightAt (bc7Mode m).ib (indexAt b [0] (primaryPos m) (bc7Mode m).ib p)
/-- The weight of its secondary index. -/
def secondaryWeight (m b p : Nat) : Nat := weightAt (bc7Mode m).ib2 (indexAt b [0] (secondaryPos m) (bc7Mode m).ib2 p)

theorem weightAt_le (width i : Nat) : weightAt width i ≤ 64 := by
  have hall : ∀ w ∈ bc7Weights width, w ≤ 64 := by
    unfold bc7Weights
    split <;> decide
  rw [weightAt, List.getD]
  cases hget : (bc7Weights width)[i]? with
  | none => exact Nat.zero_le _
  | some w => exact hall w (List.mem_of_getElem? hget)

theorem alphaWeight_le (md : Bc7Mode) (f : Bc7Fields) (p : Nat) : alphaWeight md f p ≤ 64 := by
  unfold alphaWeight
  split <;> exact weightAt_le _ _

/-! ## Pixels (43_bc7.md R190 to R193) -/

/-- The interpolation of R190 with a division. -/
def mix (e0 e1 w : Nat) : Nat := ((64 - w) * e0 + w * e1 + 32) / 64

theorem interp_eq_mix (e0 e1 w : Nat) : interp e0 e1 w = mix e0 e1 w := Nat.shiftRight_eq_div_pow _ 6

theorem interp_same (v : Nat) {w : Nat} (h : w ≤ 64) : interp v v w = v := by
  have hsum : (64 - w) * v + w * v = 64 * v := by rw [← Nat.add_mul, Nat.sub_add_cancel h]
  rw [interp_eq_mix, mix, hsum]
  omega

theorem rotate_eq {rot : Nat} (h : rot < 4) (r g b a : Nat) : rotate rot ⟨r, g, b, a⟩ =
    if rot = 1 then ⟨a, g, b, r⟩ else if rot = 2 then ⟨r, a, b, g⟩ else if rot = 3 then ⟨r, g, a, b⟩
    else ⟨r, g, b, a⟩ := by
  interval_cases rot <;> rfl

theorem bc7Subset_lt {ns : Nat} (hlow : 1 ≤ ns) (hhigh : ns ≤ 3) (part p : Nat) : bc7Subset ns part p < ns := by
  obtain ⟨h2, h3⟩ := bc7Partition_lt part p
  obtain rfl | rfl | rfl : ns = 1 ∨ ns = 2 ∨ ns = 3 := by omega
  · exact Nat.one_pos
  · exact h2
  · exact h3

/-- A pixel from the endpoints of its subset, rotated last. -/
theorem bc7Pixel_eq {m : Nat} (hm : m < 8) (b p : Nat) {s wc wa : Nat}
    (hs : bc7Subset (bc7Mode m).ns (bc7PartOf m b) p = s) (hwc : colourWeight (bc7Mode m) (bc7Parse m b) p = wc)
    (hwa : alphaWeight (bc7Mode m) (bc7Parse m b) p = wa) :
    bc7Pixel (bc7Mode m) (bc7Parse m b) p = rotate (bc7Parse m b).rot
      ⟨mix (endpointAt m b (2 * s) 0) (endpointAt m b (2 * s + 1) 0) wc,
        mix (endpointAt m b (2 * s) 1) (endpointAt m b (2 * s + 1) 1) wc,
        mix (endpointAt m b (2 * s) 2) (endpointAt m b (2 * s + 1) 2) wc,
        mix (endpointAt m b (2 * s) 3) (endpointAt m b (2 * s + 1) 3) wa⟩ := by
  obtain ⟨hlow, hhigh, _⟩ := bc7Mode_bounds m hm
  have hlt : s < (bc7Mode m).ns := hs ▸ bc7Subset_lt hlow hhigh _ p
  have hpart : (bc7Parse m b).part = bc7PartOf m b := rfl
  have hcolour {e c : Nat} (he : e < 2) (hc : c < 3) := bc7Colour_eq hm b hlt he hc
  have halpha {e : Nat} (he : e < 2) := bc7Alpha_eq hm b hlt he
  simp only [bc7Pixel, hpart, hs, hwc, hwa, interp_eq_mix]
  simp (disch := decide) only [hcolour, halpha, Nat.add_zero]

theorem bc7Parse_rot {m : Nat} (hm : m < 8) (b : Nat) :
    (bc7Parse m b).rot = bitField b (m + 1 + (bc7Mode m).pb) (bc7Mode m).rb := by
  rw [bc7Parse_eq hm]

theorem bc7Parse_isel {m : Nat} (hm : m < 8) (b : Nat) :
    (bc7Parse m b).isel = bitField b (m + 1 + (bc7Mode m).pb + (bc7Mode m).rb) (bc7Mode m).isb := by
  rw [bc7Parse_eq hm]

/-- A mode without rotation bits does not rotate. -/
theorem bc7Parse_rot_zero {m : Nat} (hm : m < 8) (hrb : (bc7Mode m).rb = 0) (b : Nat) : (bc7Parse m b).rot = 0 := by
  rw [bc7Parse_rot hm, hrb, bitField_zero]

/-- A pixel of a mode without alpha bits and without rotation is opaque. -/
theorem bc7Pixel_alpha {m : Nat} (hm : m < 8) (hab : (bc7Mode m).ab = 0) (hrb : (bc7Mode m).rb = 0) (b p : Nat) :
    (bc7Pixel (bc7Mode m) (bc7Parse m b) p).a = 255 := by
  simp only [bc7Pixel, bc7Parse_rot_zero hm hrb, rotate, bc7Alpha, if_pos hab]
  exact interp_same 255 (alphaWeight_le _ _ _)

theorem wordOfPixel_alpha (x : Pixel) : (wordOfPixel x).extractLsb' 24 8 = BitVec.ofNat 8 x.a := by
  apply BitVec.eq_of_toNat_eq
  have hlt : gather 8 [x.r, x.g, x.b, x.a] < 2 ^ 32 := gather_lt 8 [x.r, x.g, x.b, x.a]
  rw [toNat_extract, wordOfPixel, BitVec.toNat_ofNat, Nat.mod_eq_of_lt hlt, BitVec.toNat_ofNat]
  exact digit_gather 8 [x.r, x.g, x.b, x.a] 3

/-! ## UNPACK.BC7 (43_bc7.md R193 to R195) -/

theorem checkOf_unpackBc7 {s : State} (h : Ready .bc7 s) : checkOf .unpackBc7 s = .success :=
  (dataChecks_success .bc7 s).2 h

theorem effectOf_unpackBc7_out (s : State) (p : Fin 16) :
    (effectOf .unpackBc7 s).out[p] = wordOfPixel (bc7Decode (blockBits s.block))[p] := by
  simp [effectOf, outWords]

/-- Settles O42: the reserved mode by its decode, the opaque modes by `bc7Pixel_alpha`. -/
theorem unpackBc7Result : Obligations.UnpackBc7Result := by
  intro s hready
  refine completes_of_checkOf (checkOf_unpackBc7 hready) ⟨rfl, fun hzero p => ?_, fun hopaque p => ?_⟩
  · rw [finish_out, effectOf_unpackBc7_out, bc7Decode_reserved (bc7ModeOf_reserved hzero)]
    simp [wordOfPixel, gather_cons]
  · obtain ⟨m, hm, hmode⟩ := exists_mode_lt_four hopaque
    have hrow : ∀ m < 4, (bc7Mode m).ab = 0 ∧ (bc7Mode m).rb = 0 := by decide
    obtain ⟨hab, hrb⟩ := hrow m hm
    rw [finish_out, effectOf_unpackBc7_out, wordOfPixel_alpha, bc7Decode_getElem hmode,
      bc7Pixel_alpha (by omega) hab hrb]
    rfl

/-! ## The eight modes (43_bc7.md R183 to R192) -/

theorem unpackBc7_completes {s : State} (hready : Ready .bc7 s) {m : Nat}
    (hmode : bc7ModeOf (blockBits s.block) = some m) {pixel : Fin 16 → Pixel}
    (hpixel : ∀ p, bc7Pixel (bc7Mode m) (bc7Parse m (blockBits s.block)) p.val = pixel p) :
    Completes .unpackBc7 s [.out] fun t => ∀ p : Fin 16, t.out[p] = wordOfPixel (pixel p) := by
  refine completes_of_checkOf (checkOf_unpackBc7 hready) fun p => ?_
  rw [finish_out, effectOf_unpackBc7_out, bc7Decode_getElem hmode, hpixel]

section
variable {s : State} (hready : Ready .bc7 s) {m : Nat} (hm : m < 8) (hblock : s.block[0].toNat % 2 ^ (m + 1) = 2 ^ m)
include hready hm hblock

/-- A mode without rotation and secondary indices, its endpoints, subsets and anchors given by name. -/
theorem unpackBc7_unrotated (hrb : (bc7Mode m).rb = 0) (hib2 : (bc7Mode m).ib2 = 0) {endpoint : Nat → Nat → Nat}
    (hendpoint : ∀ k c, endpoint k c = endpointAt m (blockBits s.block) k c) {subset : Nat → Nat}
    (hsubset : ∀ p, bc7Subset (bc7Mode m).ns (bc7PartOf m (blockBits s.block)) p = subset p) {anchors : List Nat}
    (hnodup : anchors.Nodup)
    (hanchor : ∀ p, bc7IsAnchor (bc7Mode m).ns (bc7PartOf m (blockBits s.block)) p = decide (p ∈ anchors)) :
    Completes .unpackBc7 s [.out] fun t => ∀ p : Fin 16,
      let x := fun c => mix (endpoint (2 * subset p.val) c) (endpoint (2 * subset p.val + 1) c)
        (weightAt (bc7Mode m).ib (indexAt (blockBits s.block) anchors (primaryPos m) (bc7Mode m).ib p.val))
      t.out[p] = wordOfPixel ⟨x 0, x 1, x 2, x 3⟩ := by
  refine unpackBc7_completes hready (bc7ModeOf_blockBits hm hblock) fun p => ?_
  have hindex := bc7Parse_i1_getD hm (blockBits s.block) hnodup hanchor p.isLt
  have hwc : colourWeight (bc7Mode m) (bc7Parse m (blockBits s.block)) p.val = _ := if_pos (.inl hib2)
  have hwa : alphaWeight (bc7Mode m) (bc7Parse m (blockBits s.block)) p.val = _ := if_pos (.inl hib2)
  rw [hindex] at hwc hwa
  rw [bc7Pixel_eq hm _ _ (hsubset _) hwc hwa, bc7Parse_rot_zero hm hrb]
  simp only [rotate, hendpoint]

/-- A mode of one subset with secondary indices and a rotation of two bits: the index selection says which of the two
weights is the colour's. -/
theorem unpackBc7_rotated (hns : (bc7Mode m).ns = 1) (hib2 : (bc7Mode m).ib2 ≠ 0) {endpoint : Nat → Nat → Nat}
    (hendpoint : ∀ k c, endpoint k c = endpointAt m (blockBits s.block) k c) {wc wa : Nat → Nat} {rot isel : Nat}
    (hisel : bitField (blockBits s.block) (m + 1 + (bc7Mode m).pb + (bc7Mode m).rb) (bc7Mode m).isb = isel)
    (hwc : ∀ p, wc p = if isel = 0 then primaryWeight m (blockBits s.block) p
      else secondaryWeight m (blockBits s.block) p)
    (hwa : ∀ p, wa p = if isel = 0 then secondaryWeight m (blockBits s.block) p
      else primaryWeight m (blockBits s.block) p)
    (hrot : bitField (blockBits s.block) (m + 1 + (bc7Mode m).pb) (bc7Mode m).rb = rot) (hlt : rot < 4) :
    Completes .unpackBc7 s [.out] fun t => ∀ p : Fin 16,
      let x := fun c => mix (endpoint 0 c) (endpoint 1 c) (if c = 3 then wa p.val else wc p.val)
      t.out[p] = wordOfPixel (if rot = 1 then ⟨x 3, x 1, x 2, x 0⟩ else if rot = 2 then ⟨x 0, x 3, x 2, x 1⟩
        else if rot = 3 then ⟨x 0, x 1, x 3, x 2⟩ else ⟨x 0, x 1, x 2, x 3⟩) := by
  refine unpackBc7_completes hready (bc7ModeOf_blockBits hm hblock) fun p => ?_
  have hanchor (q : Nat) : bc7IsAnchor (bc7Mode m).ns (bc7PartOf m (blockBits s.block)) q = decide (q ∈ [0]) := by
    rw [hns, bc7IsAnchor_one]
  have hsubset : bc7Subset (bc7Mode m).ns (bc7PartOf m (blockBits s.block)) p.val = 0 := by rw [hns]; rfl
  have hi1 := bc7Parse_i1_getD hm (blockBits s.block) (List.nodup_singleton 0) hanchor p.isLt
  have hi2 := bc7Parse_i2_getD hm (blockBits s.block) hib2 p.isLt
  have hcolour : colourWeight (bc7Mode m) (bc7Parse m (blockBits s.block)) p.val = wc p.val := by
    simp only [colourWeight, hib2, false_or, bc7Parse_isel hm, hisel, hi1, hi2, hwc, primaryWeight, secondaryWeight]
  have halpha : alphaWeight (bc7Mode m) (bc7Parse m (blockBits s.block)) p.val = wa p.val := by
    simp only [alphaWeight, hib2, false_or, bc7Parse_isel hm, hisel, hi1, hi2, hwa, primaryWeight, secondaryWeight,
      ne_eq, ite_not]
  rw [bc7Pixel_eq hm _ _ hsubset hcolour halpha, bc7Parse_rot hm, hrot, rotate_eq hlt]
  simp [hendpoint]

end

theorem bc7Anchors_two_nodup (part : Nat) : [0, bc7A2 part].Nodup := by
  obtain ⟨hpos, _, _⟩ := bc7Anchors_pos part
  simp [hpos.ne]

theorem bc7Anchors_three_nodup (part : Nat) : [0, bc7A3a part, bc7A3b part].Nodup := by
  obtain ⟨_, hpos, hpos'⟩ := bc7Anchors_pos part
  simp [hpos.ne, hpos'.ne, (bc7A3b_ne part).symm]

/-- Settles O43: each mode is its row of the mode table in `unpackBc7_unrotated` or `unpackBc7_rotated`; evaluating the
row gives the positions and widths of the statement, so endpoints, subsets, weights and rotation agree by `rfl`. Modes 6
and 7 write alpha as a fourth channel (`endpointAt_of_ab_eq_cb`). -/
theorem unpackBc7EveryMode : Obligations.UnpackBc7EveryMode := by
  intro s hready
  rw [← blockBits_eq_sum s.block]
  intro bits field index w2 w3 w4 mix u5 u6 u7 mode rotated
  refine ⟨fun h => ?mode0, fun h => ?mode1, fun h => ?mode2, fun h => ?mode3, fun h => ?mode4, fun h => ?mode5,
    fun h => ?mode6, fun h => ?mode7⟩
  case mode0 =>
    exact unpackBc7_unrotated (m := 0) hready (by decide) h rfl rfl (fun _ _ => rfl) (fun _ => rfl)
      (bc7Anchors_three_nodup _) (bc7IsAnchor_three _)
  case mode1 =>
    exact unpackBc7_unrotated (m := 1) hready (by decide) h rfl rfl (fun _ _ => rfl) (fun _ => rfl)
      (bc7Anchors_two_nodup _) (bc7IsAnchor_two _)
  case mode2 =>
    exact unpackBc7_unrotated (m := 2) hready (by decide) h rfl rfl (fun _ _ => rfl) (fun _ => rfl)
      (bc7Anchors_three_nodup _) (bc7IsAnchor_three _)
  case mode3 =>
    exact unpackBc7_unrotated (m := 3) hready (by decide) h rfl rfl (fun _ _ => rfl) (fun _ => rfl)
      (bc7Anchors_two_nodup _) (bc7IsAnchor_two _)
  case mode4 =>
    exact unpackBc7_rotated (m := 4) hready (by decide) h rfl (by decide) (fun _ _ => rfl) rfl
      (fun p => ite_apply _ _ _ p) (fun p => ite_apply _ _ _ p) rfl (bitField_lt _ _ 2)
  case mode5 =>
    exact unpackBc7_rotated (m := 5) (wc := fun p => w2 (index [0] 66 2 p)) (wa := fun p => w2 (index [0] 97 2 p))
      hready (by decide) h rfl (by decide) (fun _ _ => rfl) (bitField_zero _ _) (fun _ => rfl) (fun _ => rfl) rfl
      (bitField_lt _ _ 2)
  case mode6 =>
    exact unpackBc7_unrotated (m := 6) hready (by decide) h rfl rfl
      (fun _ _ => (endpointAt_of_ab_eq_cb (by decide) rfl _ _ _).symm) (fun _ => rfl) (List.nodup_singleton 0)
      (bc7IsAnchor_one _)
  case mode7 =>
    exact unpackBc7_unrotated (m := 7) hready (by decide) (by rw [h]; rfl) rfl rfl
      (fun _ _ => (endpointAt_of_ab_eq_cb (by decide) rfl _ _ _).symm) (fun _ => rfl) (bc7Anchors_two_nodup _)
      (bc7IsAnchor_two _)

end Sys2Proof.Machine
end

section
/-! Proofs about the error metric (44_quantizer.md R210, R211): weights and squared differences as the spec writes them,
the range of everything a decoder answers, so that ERR holds the whole sum, and the statements on EVAL. -/

namespace Sys2Proof.Machine

/-! ## Weights, squared differences and pixels -/

/-- The weights of R211, by bit 3 of CFG0. -/
theorem weight_eq (cfg0 cfg2 : Word) (c : Nat) : weight (cfgPerceptual cfg0) cfg2 c =
    if cfg0.getLsbD 3 = true then (cfg2.extractLsb' (8 * c) 8).toNat else 1 := by
  rw [weight, cfgWeight_eq]
  exact if_congr (slice_bit_eq_one_iff cfg0 3) rfl rfl

theorem weight_le (per : Nat) (cfg2 : Word) (c : Nat) : weight per cfg2 c ≤ 255 := by
  unfold weight
  split
  · exact Nat.le_of_lt_succ (digit_lt 8 _ c)
  · decide

theorem sqDiff_self (x : Nat) : sqDiff x x = 0 := by simp [sqDiff]

/-- The two truncated differences are the distance, one of them being 0. -/
theorem sqDiff_eq_natAbs (x y : Nat) : sqDiff x y = ((x : Int) - y).natAbs ^ 2 := by
  unfold sqDiff; congr 1; omega

theorem sqDiff_cast (x y : Nat) : (sqDiff x y : Int) = ((x : Int) - y) ^ 2 := by
  rw [sqDiff_eq_natAbs, Nat.cast_pow, Int.natCast_natAbs, sq_abs]

theorem sqDiff_le {x y : Nat} (hx : x ≤ 255) (hy : y ≤ 255) : sqDiff x y ≤ 255 ^ 2 :=
  Nat.pow_le_pow_left (by omega) 2

theorem tilePixel_eq (tile : Vector Word 16) (p : Fin 16) : tilePixel tile p =
    ⟨(tile[p].extractLsb' 0 8).toNat, (tile[p].extractLsb' 8 8).toNat, (tile[p].extractLsb' 16 8).toNat,
      (tile[p].extractLsb' 24 8).toNat⟩ := by
  simp only [tilePixel, pixelOfWord, digit_eq_extract, Nat.reduceMul]

/-- Each channel fits into its byte of a pixel register (10_state.md R34, R39). -/
def ByteRange (x : Pixel) : Prop := x.r ≤ 255 ∧ x.g ≤ 255 ∧ x.b ≤ 255 ∧ x.a ≤ 255

theorem byteRange_tilePixel (tile : Vector Word 16) (p : Fin 16) : ByteRange (tilePixel tile p) :=
  ⟨channel_le tile p 0, channel_le tile p 1, channel_le tile p 2, channel_le tile p 3⟩

/-! ## The errors in the words of R210 -/

theorem rgbTerm_cast (per : Nat) (cfg2 : Word) (d t : Pixel) : (rgbTerm per cfg2 d t : Int) =
    weight per cfg2 0 * ((d.r : Int) - t.r) ^ 2 + weight per cfg2 1 * ((d.g : Int) - t.g) ^ 2 +
      weight per cfg2 2 * ((d.b : Int) - t.b) ^ 2 := by
  simp only [rgbTerm, Nat.cast_add, Nat.cast_mul, sqDiff_cast]

theorem rgbaTerm_cast (per : Nat) (cfg2 : Word) (d t : Pixel) : (rgbaTerm per cfg2 d t : Int) =
    weight per cfg2 0 * ((d.r : Int) - t.r) ^ 2 + weight per cfg2 1 * ((d.g : Int) - t.g) ^ 2 +
      weight per cfg2 2 * ((d.b : Int) - t.b) ^ 2 + weight per cfg2 3 * ((d.a : Int) - t.a) ^ 2 := by
  rw [rgbaTerm, Nat.cast_add, rgbTerm_cast, Nat.cast_mul, sqDiff_cast]

theorem errBc1_eq_sum (per : Nat) (cfg2 : Word) (d : Vector Pixel 16) (tile : Vector Word 16) :
    errBc1 per cfg2 d tile = ∑ p : Fin 16, rgbTerm per cfg2 d[p] (tilePixel tile p) := sumPixels_eq _

theorem errBc7_eq_sum (per : Nat) (cfg2 : Word) (d : Vector Pixel 16) (tile : Vector Word 16) :
    errBc7 per cfg2 d tile = ∑ p : Fin 16, rgbaTerm per cfg2 d[p] (tilePixel tile p) := sumPixels_eq _

theorem errBc4_eq_sum (v t : Vector Nat 16) : errBc4 v t = ∑ p : Fin 16, sqDiff v[p] t[p] := sumPixels_eq _

theorem errBc4_cast (v t : Vector Nat 16) : (errBc4 v t : Int) = ∑ p : Fin 16, ((v[p] : Int) - t[p]) ^ 2 := by
  rw [errBc4_eq_sum, Nat.cast_sum]
  exact Finset.sum_congr rfl fun p _ => sqDiff_cast _ _

/-! ## The bound of ERR (10_state.md R38) -/

theorem weight_mul_sqDiff_le (per : Nat) (cfg2 : Word) (c : Nat) {x y : Nat} (hx : x ≤ 255) (hy : y ≤ 255) :
    weight per cfg2 c * sqDiff x y ≤ 255 * 255 ^ 2 :=
  Nat.mul_le_mul (weight_le per cfg2 c) (sqDiff_le hx hy)

theorem rgbaTerm_le (per : Nat) (cfg2 : Word) {d t : Pixel} (hd : ByteRange d) (ht : ByteRange t) :
    rgbaTerm per cfg2 d t ≤ 4 * (255 * 255 ^ 2) := by
  obtain ⟨dr, dg, db, da⟩ := hd
  obtain ⟨tr, tg, tb, ta⟩ := ht
  have hr := weight_mul_sqDiff_le per cfg2 0 dr tr
  have hg := weight_mul_sqDiff_le per cfg2 1 dg tg
  have hb := weight_mul_sqDiff_le per cfg2 2 db tb
  have ha := weight_mul_sqDiff_le per cfg2 3 da ta
  unfold rgbaTerm rgbTerm
  omega

theorem errBc7_le (per : Nat) (cfg2 : Word) {d : Vector Pixel 16} (hd : ∀ p : Fin 16, ByteRange d[p])
    (tile : Vector Word 16) : errBc7 per cfg2 d tile ≤ maxError :=
  sumPixels_le _ _ fun p => rgbaTerm_le per cfg2 (hd p) (byteRange_tilePixel tile p)

/-- The BC1 error leaves out a term of the BC7 error. -/
theorem errBc1_le_errBc7 (per : Nat) (cfg2 : Word) (d : Vector Pixel 16) (tile : Vector Word 16) :
    errBc1 per cfg2 d tile ≤ errBc7 per cfg2 d tile := by
  rw [errBc1_eq_sum, errBc7_eq_sum]
  exact Finset.sum_le_sum fun p _ => Nat.le_add_right _ _

theorem errBc1_le (per : Nat) (cfg2 : Word) {d : Vector Pixel 16} (hd : ∀ p : Fin 16, ByteRange d[p])
    (tile : Vector Word 16) : errBc1 per cfg2 d tile ≤ maxError :=
  (errBc1_le_errBc7 per cfg2 d tile).trans (errBc7_le per cfg2 hd tile)

theorem errBc4_le {v t : Vector Nat 16} (hv : ∀ p : Fin 16, v[p] ≤ 255) (ht : ∀ p : Fin 16, t[p] ≤ 255) :
    errBc4 v t ≤ 16 * 255 ^ 2 :=
  sumPixels_le _ _ fun p => sqDiff_le (hv p) (ht p)

/-- ERR holds an error within the bound. -/
theorem toNat_err {e : Nat} (h : e ≤ maxError) : (BitVec.ofNat 32 e).toNat = e := by
  rw [BitVec.toNat_ofNat]
  unfold maxError at h
  omega

/-! ## What the decoders answer is in the range of a byte -/

/-- A selector out of range of the palette reads the default. -/
theorem entry_of_forall {α : Type} [Inhabited α] {P : α → Prop} {pal : List α} (hpal : ∀ x ∈ pal, P x)
    (hdefault : P default) (a : Nat) : P (entry pal a) := by
  rw [entry, List.getD]
  cases hget : pal[a]? with
  | none => exact hdefault
  | some x => exact hpal x (List.mem_of_getElem? hget)

theorem byteRange_unpack565 (c : Nat) : ByteRange (unpack565 c) := by
  have hr : slice 15 11 c < 32 := slice_lt 15 11 c
  have hg : slice 10 5 c < 64 := slice_lt 10 5 c
  have hb : slice 4 0 c < 32 := slice_lt 4 0 c
  simp only [ByteRange, unpack565, x5_eq hr, x6_eq hg, x5_eq hb]
  omega

theorem byteRange_mixPixel {f : Nat → Nat → Nat} (hf : ∀ x y, x ≤ 255 → y ≤ 255 → f x y ≤ 255) {e0 e1 : Pixel}
    (h0 : ByteRange e0) (h1 : ByteRange e1) : ByteRange (mixPixel f e0 e1) := by
  obtain ⟨r0, g0, b0, _⟩ := h0
  obtain ⟨r1, g1, b1, _⟩ := h1
  exact ⟨hf _ _ r0 r1, hf _ _ g0 g1, hf _ _ b0 b1, le_rfl⟩

theorem byteRange_opaquePixel (c : Config.Rgb) : ByteRange (opaquePixel c) :=
  ⟨Nat.le_of_lt_succ c.r.isLt, Nat.le_of_lt_succ c.g.isLt, Nat.le_of_lt_succ c.b.isLt, le_rfl⟩

theorem byteRange_zero : ByteRange ⟨0, 0, 0, 0⟩ := by simp [ByteRange]

theorem byteRange_bc1Entry2 (mode c0 c1 : Nat) : ByteRange (bc1Entry2 mode c0 c1) := by
  have hmix {f : Nat → Nat → Nat} (hf : ∀ x y, x ≤ 255 → y ≤ 255 → f x y ≤ 255) :=
    byteRange_mixPixel hf (byteRange_unpack565 c0) (byteRange_unpack565 c1)
  unfold bc1Entry2
  split_ifs
  · exact hmix fun x y hx hy => by omega
  · exact hmix fun x y hx hy => by omega
  · exact byteRange_opaquePixel _

theorem byteRange_bc1Entry3 (mode c0 c1 : Nat) : ByteRange (bc1Entry3 mode c0 c1) := by
  have hmix {f : Nat → Nat → Nat} (hf : ∀ x y, x ≤ 255 → y ≤ 255 → f x y ≤ 255) :=
    byteRange_mixPixel hf (byteRange_unpack565 c0) (byteRange_unpack565 c1)
  unfold bc1Entry3
  split_ifs
  · exact hmix fun x y hx hy => by omega
  · exact byteRange_opaquePixel _
  · exact byteRange_zero

theorem byteRange_bc1Pal (mode c0 c1 : Nat) : ∀ x ∈ bc1Pal mode c0 c1, ByteRange x := by
  simp [bc1Pal, byteRange_unpack565, byteRange_bc1Entry2, byteRange_bc1Entry3]

theorem bc1Decode_getElem (mode b : Nat) (p : Fin 16) :
    (bc1Decode mode b)[p] = entry (bc1Pal mode (bc1C0 b) (bc1C1 b)) (bc1Sel b p.val) := by
  simp [bc1Decode]

theorem byteRange_bc1Decode (mode b : Nat) (p : Fin 16) : ByteRange (bc1Decode mode b)[p] := by
  rw [bc1Decode_getElem]
  exact entry_of_forall (byteRange_bc1Pal _ _ _) byteRange_zero _

theorem bc4E0_le (b : Nat) : bc4E0 b ≤ 255 := Nat.le_of_lt_succ (slice_lt 7 0 b)
theorem bc4E1_le (b : Nat) : bc4E1 b ≤ 255 := Nat.le_of_lt_succ (slice_lt 15 8 b)

theorem bc4Values_le (b : Nat) (p : Fin 16) : (bc4Values b)[p] ≤ 255 := by
  rw [bc4Values_getElem]
  exact entry_of_forall (bc4Pal_le (bc4E0_le b) (bc4E1_le b)) (Nat.zero_le _) _

theorem tileChannel_getElem (tile : Vector Word 16) (ch : Nat) (p : Fin 16) :
    (tileChannel tile ch)[p] = channel (tilePixel tile p) ch := by simp [tileChannel]

theorem tileChannel_le (tile : Vector Word 16) (ch : Nat) (p : Fin 16) : (tileChannel tile ch)[p] ≤ 255 := by
  rw [tileChannel_getElem]; exact channel_le tile p ch

theorem tileChannel_eq_extract (tile : Vector Word 16) {ch : Nat} (h : ch < 4) (p : Fin 16) :
    (tileChannel tile ch)[p] = (tile[p].extractLsb' (8 * ch) 8).toNat := by
  rw [tileChannel_getElem, channel_tilePixel tile p ch h]

theorem replicated_le {v n : Nat} (hv : v < 2 ^ n) (hlow : 4 ≤ n) (hhigh : n ≤ 8) : replicated v n ≤ 255 := by
  have hsplit : 2 ^ (8 - n) * 2 ^ (2 * n - 8) = 2 ^ n := by rw [← Nat.pow_add]; congr 1; omega
  have hfull : 2 ^ (8 - n) * 2 ^ n = 2 ^ 8 := by rw [← Nat.pow_add]; congr 1; omega
  have hbelow : v / 2 ^ (2 * n - 8) < 2 ^ (8 - n) := Nat.div_lt_of_lt_mul (by rwa [Nat.mul_comm, hsplit])
  have habove : 2 ^ (8 - n) * (v + 1) ≤ 2 ^ 8 := hfull ▸ Nat.mul_le_mul_left _ hv
  rw [Nat.mul_add] at habove
  unfold replicated
  split_ifs with h8
  · subst h8; omega
  · omega

theorem withPBitAt_le {m b k v n : Nat} (hv : v < 2 ^ n) (hlow : 4 ≤ n) (hhigh : n ≤ 8)
    (hp : (bc7Mode m).pbits ≠ .absent → n ≤ 7) : withPBitAt m b k v n ≤ 255 := by
  have hbit (pos : Nat) : 2 * v + bitField b pos 1 < 2 ^ (n + 1) := by
    have := bitField_lt b pos 1
    omega
  unfold withPBitAt
  cases hkind : (bc7Mode m).pbits with
  | absent => exact replicated_le hv hlow hhigh
  | perEndpoint | perSubset =>
    have hn : n ≤ 7 := hp (by rw [hkind]; decide)
    exact replicated_le (hbit _) (by omega) (by omega)

theorem endpointAt_le {m : Nat} (hm : m < 8) (b k c : Nat) : endpointAt m b k c ≤ 255 := by
  obtain ⟨hlow, hhigh, halpha⟩ := bc7Mode_widths m hm
  unfold endpointAt
  split_ifs with hc hab
  · exact le_rfl
  · obtain ⟨hlowA, hhighA, hp⟩ := halpha hab
    exact withPBitAt_le (bitField_lt _ _ _) hlowA hhighA hp
  · exact withPBitAt_le (bitField_lt _ _ _) hlow (by omega) fun _ => hhigh

theorem colourWeight_le (md : Bc7Mode) (f : Bc7Fields) (p : Nat) : colourWeight md f p ≤ 64 := by
  unfold colourWeight
  split <;> exact weightAt_le _ _

/-- A weighted mean of two bytes is a byte. -/
theorem mix_le {e0 e1 w : Nat} (h0 : e0 ≤ 255) (h1 : e1 ≤ 255) (hw : w ≤ 64) : mix e0 e1 w ≤ 255 := by
  have hleft : (64 - w) * e0 ≤ (64 - w) * 255 := Nat.mul_le_mul_left _ h0
  have hright : w * e1 ≤ w * 255 := Nat.mul_le_mul_left _ h1
  unfold mix
  omega

theorem byteRange_rotate (rot : Nat) {x : Pixel} (h : ByteRange x) : ByteRange (rotate rot x) := by
  obtain ⟨hr, hg, hb, ha⟩ := h
  unfold rotate
  split
  · exact ⟨hr, hg, hb, ha⟩
  · exact ⟨ha, hg, hb, hr⟩
  · exact ⟨hr, ha, hb, hg⟩
  · exact ⟨hr, hg, ha, hb⟩

theorem byteRange_bc7Pixel {m : Nat} (hm : m < 8) (b p : Nat) :
    ByteRange (bc7Pixel (bc7Mode m) (bc7Parse m b) p) := by
  have hmix {k k' c w : Nat} (hw : w ≤ 64) := mix_le (endpointAt_le hm b k c) (endpointAt_le hm b k' c) hw
  have hwc := colourWeight_le (bc7Mode m) (bc7Parse m b) p
  have hwa := alphaWeight_le (bc7Mode m) (bc7Parse m b) p
  rw [bc7Pixel_eq hm b p rfl rfl rfl]
  exact byteRange_rotate _ ⟨hmix hwc, hmix hwc, hmix hwc, hmix hwa⟩

theorem lt_of_bc7ModeOf {b m : Nat} (h : bc7ModeOf b = some m) : m < 8 :=
  List.mem_range.1 (List.mem_of_find?_eq_some h)

theorem byteRange_bc7Decode (b : Nat) (p : Fin 16) : ByteRange (bc7Decode b)[p] := by
  cases hmode : bc7ModeOf b with
  | none => simpa [bc7Decode_reserved hmode] using byteRange_zero
  | some m =>
    rw [bc7Decode_getElem hmode]
    exact byteRange_bc7Pixel (lt_of_bc7ModeOf hmode) b p.val

/-! ## EVAL (44_quantizer.md R217 to R220) -/

/-- Of the data commands PACK alone has a check of its own (60_exceptions.md R262, step 4). -/
theorem checkOf_of_ready {i : Instr} (hop : i.op ∈ [.unpack, .select, .encode, .eval]) {s : State}
    (h : Ready i.fmt s) : checkOf i s = .success := by
  rw [← (dataChecks_success i.fmt s).2 h]
  cases i with
  | init | destroy | reset | packBc1 | packBc4 | packBc5 => simp [Instr.op] at hop
  | _ => rfl

theorem weight_cast (cfg0 cfg2 : Word) (c : Nat) : (weight (cfgPerceptual cfg0) cfg2 c : Int) =
    if cfg0.getLsbD 3 = true then ((cfg2.extractLsb' (8 * c) 8).toNat : Int) else 1 := by
  rw [weight_eq, Nat.cast_ite, Nat.cast_one]

/-- Settles O51: the sums of `errBc1` and `errBc7`, term by term in the integers, and within what ERR holds. -/
theorem evalBc1Bc7Result : Obligations.EvalBc1Bc7Result := by
  intro s w t'
  have hw (c : Nat) : w c = weight (cfgPerceptual s.cfg0) s.cfg2 c := (weight_cast s.cfg0 s.cfg2 c).symm
  refine ⟨fun hready => ?bc1, fun hready => ?bc7⟩
  case bc1 =>
    rw [← cfgBc1Mode_eq]
    refine completes_of_checkOf (checkOf_of_ready (by decide) hready) ⟨rfl, ?_⟩
    change ((BitVec.ofNat 32 _).toNat : Int) = _
    rw [toNat_err (errBc1_le _ _ (byteRange_bc1Decode _ _) _), errBc1_eq_sum, Nat.cast_sum]
    refine Finset.sum_congr rfl fun p _ => ?_
    rw [rgbTerm_cast, hw, hw, hw, tilePixel_eq]
  case bc7 =>
    refine completes_of_checkOf (checkOf_of_ready (by decide) hready) ⟨rfl, ?_⟩
    change ((BitVec.ofNat 32 _).toNat : Int) = _
    rw [toNat_err (errBc7_le _ _ (byteRange_bc7Decode _) _), errBc7_eq_sum, Nat.cast_sum]
    refine Finset.sum_congr rfl fun p _ => ?_
    rw [rgbaTerm_cast, hw, hw, hw, hw, tilePixel_eq]

theorem cfgCh0_lt (cfg0 : Word) : cfgCh0 cfg0 < 4 := slice_lt 17 16 _
theorem cfgCh1_lt (cfg0 : Word) : cfgCh1 cfg0 < 4 := slice_lt 19 18 _

theorem errBc4_bc4Values_le (b : Nat) (tile : Vector Word 16) (ch : Nat) :
    errBc4 (bc4Values b) (tileChannel tile ch) ≤ 16 * 255 ^ 2 :=
  errBc4_le (bc4Values_le b) (tileChannel_le tile ch)

/-- The error of a decoded half against a channel of TILE, in the bytes of TILE. -/
theorem errBc4_tileChannel_cast (b : Nat) (tile : Vector Word 16) {ch : Nat} (h : ch < 4) :
    (errBc4 (bc4Values b) (tileChannel tile ch) : Int) =
      ∑ p : Fin 16, (((bc4Values b)[p] : Int) - (tile[p].extractLsb' (8 * ch) 8).toNat) ^ 2 := by
  simp only [errBc4_cast, tileChannel_eq_extract tile h]

theorem effectOf_evalBc4_out (s : State) (p : Fin 16) :
    (effectOf .evalBc4 s).out[p] = wordOfPixel ⟨(bc4Values (blockLow s.block))[p], 0, 0, 255⟩ :=
  effectOf_unpackBc4_out s p

theorem effectOf_evalBc5_out (s : State) (p : Fin 16) : (effectOf .evalBc5 s).out[p] =
    wordOfPixel ⟨(bc4Values (blockLow s.block))[p], (bc4Values (blockHigh s.block))[p], 0, 255⟩ :=
  effectOf_unpackBc5_out s p

/-- Settles O52: the sums of `errBc4` in the integers, for one half of the block and for two. -/
theorem evalBc4Bc5Result : Obligations.EvalBc4Bc5Result := by
  intro s
  rw [← cfgCh0_eq, ← cfgCh1_eq]
  have hlow := errBc4_bc4Values_le (blockLow s.block) s.tile (cfgCh0 s.cfg0)
  have hhigh := errBc4_bc4Values_le (blockHigh s.block) s.tile (cfgCh1 s.cfg0)
  have hlowSum := errBc4_tileChannel_cast (blockLow s.block) s.tile (cfgCh0_lt s.cfg0)
  have hhighSum := errBc4_tileChannel_cast (blockHigh s.block) s.tile (cfgCh1_lt s.cfg0)
  refine ⟨fun hready => ?bc4, fun hready => ?bc5⟩
  case bc4 =>
    refine completes_of_checkOf (checkOf_of_ready (by decide) hready) ⟨effectOf_evalBc4_out s, ?_⟩
    change ((BitVec.ofNat 32 _).toNat : Int) = _
    rw [toNat_err (by unfold maxError; omega), hlowSum]
  case bc5 =>
    refine completes_of_checkOf (checkOf_of_ready (by decide) hready) ⟨effectOf_evalBc5_out s, ?_⟩
    change ((BitVec.ofNat 32 _).toNat : Int) = _
    rw [toNat_err (by unfold maxError; omega), Nat.cast_add, hlowSum, hhighSum]

end Sys2Proof.Machine
end

section
/-! Proofs about SELECT (44_quantizer.md R212 to R216): the choice of selectors, the block that SELECT and ENCODE pack
from endpoints and selectors, its decode and its error, and the statements on BestSel and SELECT. -/

namespace Sys2Proof.Machine

/-! ## BestSel (44_quantizer.md R212) -/

theorem bestSels_getElem {α : Type} [Inhabited α] (pal : List α) (allowed : List Nat) (e : α → Fin 16 → Nat)
    (p : Fin 16) : (bestSels pal allowed e)[p] = (bestFor pal allowed e p).1 := by simp [bestSels]

section
variable {α : Type} [Inhabited α] (pal : List α) {allowed : List Nat} (e : α → Fin 16 → Nat) (hne : allowed ≠ [])
  (hsorted : allowed.Pairwise (· < ·))
include hne hsorted

theorem bestSels_bestSelector (p : Fin 16) :
    BestSelector allowed (fun a => e (pal.getD a default) p) (bestSels pal allowed e)[p] := by
  rw [bestSels_getElem]
  exact (bestFor_bestSelector pal allowed e p hne hsorted).1

theorem bestErr_eq_sum :
    bestErr pal allowed e = ∑ p : Fin 16, e (pal.getD (bestSels pal allowed e)[p] default) p := by
  rw [bestErr, sumPixels_eq]
  refine Finset.sum_congr rfl fun p _ => ?_
  rw [bestSels_getElem]
  exact (bestFor_bestSelector pal allowed e p hne hsorted).2

end

/-- Settles O48: pixel by pixel `bestFor_bestSelector`, and the total is the sum of the same choices. -/
theorem bestSelIsLeastThenSmallest : Obligations.BestSelIsLeastThenSmallest :=
  fun _ _ pal _ e hne hsorted =>
    ⟨bestSels_bestSelector pal e hne hsorted, bestErr_eq_sum pal e hne hsorted⟩

/-! ## The selectors of BC1 and of one BC4 channel (44_quantizer.md R213, R215) -/

theorem bc1Allowed_eq (cfg0 : Word) (c0 c1 : Nat) : bc1Allowed cfg0 c0 c1 =
    if c0 > c1 ∨ cfg0.getLsbD 7 = true then [0, 1, 2, 3] else [0, 1, 2] := by
  have hblack : cfgUse3Black cfg0 = 1 ↔ cfg0.getLsbD 7 = true := slice_bit_eq_one_iff cfg0 7
  refine if_congr ?_ rfl rfl
  rw [Bool.or_eq_true, fourColour, decide_eq_true_eq, decide_eq_true_eq, hblack]

theorem bc1Allowed_sorted (cfg0 : Word) (c0 c1 : Nat) :
    bc1Allowed cfg0 c0 c1 ≠ [] ∧ (bc1Allowed cfg0 c0 c1).Pairwise (· < ·) ∧ ∀ a ∈ bc1Allowed cfg0 c0 c1, a ≤ 3 := by
  unfold bc1Allowed
  split <;> decide

theorem bc4Allowed_sorted : bc4Allowed ≠ [] ∧ bc4Allowed.Pairwise (· < ·) ∧ ∀ a ∈ bc4Allowed, a ≤ 7 := by decide

section
variable (cfg0 cfg2 : Word) (tile : Vector Word 16) (c0 c1 : Nat)

theorem sel1_bestSelector (p : Fin 16) : BestSelector (bc1Allowed cfg0 c0 c1)
    (fun a => rgbTerm (cfgPerceptual cfg0) cfg2 ((bc1Pal (cfgBc1Mode cfg0) c0 c1).getD a default) (tilePixel tile p))
    (sel1 cfg0 cfg2 tile c0 c1)[p] :=
  let ⟨hne, hsorted, _⟩ := bc1Allowed_sorted cfg0 c0 c1
  bestSels_bestSelector _ (fun x p => rgbTerm (cfgPerceptual cfg0) cfg2 x (tilePixel tile p)) hne hsorted p

theorem sel1_le (p : Fin 16) : (sel1 cfg0 cfg2 tile c0 c1)[p] ≤ 3 :=
  let ⟨_, _, hle⟩ := bc1Allowed_sorted cfg0 c0 c1
  let ⟨hmem, _⟩ := sel1_bestSelector cfg0 cfg2 tile c0 c1 p
  hle _ hmem

theorem sel1Err_eq_sum : sel1Err cfg0 cfg2 tile c0 c1 = ∑ p : Fin 16, rgbTerm (cfgPerceptual cfg0) cfg2
    ((bc1Pal (cfgBc1Mode cfg0) c0 c1).getD (sel1 cfg0 cfg2 tile c0 c1)[p] default) (tilePixel tile p) :=
  let ⟨hne, hsorted, _⟩ := bc1Allowed_sorted cfg0 c0 c1
  bestErr_eq_sum _ (fun x p => rgbTerm (cfgPerceptual cfg0) cfg2 x (tilePixel tile p)) hne hsorted

end

section
variable (v : Vector Nat 16) (e0 e1 : Nat)

theorem sel4_bestSelector (p : Fin 16) :
    BestSelector bc4Allowed (fun a => sqDiff ((bc4Pal e0 e1).getD a 0) v[p]) (sel4 v e0 e1)[p] :=
  let ⟨hne, hsorted, _⟩ := bc4Allowed_sorted
  bestSels_bestSelector (bc4Pal e0 e1) (fun x p => sqDiff x v[p]) hne hsorted p

theorem sel4_le (p : Fin 16) : (sel4 v e0 e1)[p] ≤ 7 :=
  let ⟨_, _, hle⟩ := bc4Allowed_sorted
  let ⟨hmem, _⟩ := sel4_bestSelector v e0 e1 p
  hle _ hmem

theorem sel4Err_eq_sum :
    sel4Err v e0 e1 = ∑ p : Fin 16, sqDiff ((bc4Pal e0 e1).getD (sel4 v e0 e1)[p] 0) v[p] :=
  let ⟨hne, hsorted, _⟩ := bc4Allowed_sorted
  bestErr_eq_sum (bc4Pal e0 e1) (fun x p => sqDiff x v[p]) hne hsorted

end

/-! ## The half of a block packed from endpoints and selectors (42_bc4_bc5.md R166) -/

section
variable (e0 e1 : Nat) (v : Vector Nat 16)

theorem gather_bytes_lt : gather 8 [e0, e1] < 2 ^ 16 := gather_lt 8 [e0, e1]

theorem gather_selectors_lt : gather 3 v.toList < 2 ^ 48 := by simpa using gather_lt 3 v.toList

theorem bc4Pack_lt : bc4Pack e0 e1 v < 2 ^ 64 := by
  have hendp := gather_bytes_lt e0 e1
  have hsels := gather_selectors_lt v
  rw [bc4Pack]; omega

theorem bc4E0_bc4Pack : bc4E0 (bc4Pack e0 e1 v) = e0 % 2 ^ 8 := by
  rw [bc4E0_eq_digit, bc4Pack, digit_add_of_lt (n := 2) (by decide), digit_gather]; rfl

theorem bc4E1_bc4Pack : bc4E1 (bc4Pack e0 e1 v) = e1 % 2 ^ 8 := by
  rw [bc4E1_eq_digit, bc4Pack, digit_add_of_lt (n := 2) (by decide), digit_gather]; rfl

theorem bc4Sel_bc4Pack (p : Fin 16) : bc4Sel (bc4Pack e0 e1 v) p.val = v[p] % 8 := by
  have hsels : slice 63 16 (bc4Pack e0 e1 v) = gather 3 v.toList := by
    have hendp := gather_bytes_lt e0 e1
    have hlt := gather_selectors_lt v
    rw [bc4Pack, slice]; omega
  rw [bc4Sel, hsels, digit_gather]
  simp [List.getD]

end

/-- Endpoints and selectors that fit into a half are read back from it. -/
theorem bc4Pack_fields {e0 e1 : Nat} {v : Vector Nat 16} (h0 : e0 ≤ 255) (h1 : e1 ≤ 255)
    (hv : ∀ p : Fin 16, v[p] ≤ 7) : bc4E0 (bc4Pack e0 e1 v) = e0 ∧ bc4E1 (bc4Pack e0 e1 v) = e1 ∧
      ∀ p : Fin 16, bc4Sel (bc4Pack e0 e1 v) p.val = v[p] := by
  refine ⟨?_, ?_, fun p => ?_⟩
  · rw [bc4E0_bc4Pack]; omega
  · rw [bc4E1_bc4Pack]; omega
  · rw [bc4Sel_bc4Pack]; exact Nat.mod_eq_of_lt (Nat.lt_succ_of_le (hv p))

/-- Endpoints and selectors that fit into a BC1 block are read back from it. -/
theorem bc1Pack_read {c0 c1 : Nat} {v : Vector Nat 16} (h0 : c0 < 2 ^ 16) (h1 : c1 < 2 ^ 16)
    (hv : ∀ p : Fin 16, v[p] ≤ 3) : bc1C0 (bc1Pack c0 c1 v) = c0 ∧ bc1C1 (bc1Pack c0 c1 v) = c1 ∧
      ∀ p : Fin 16, bc1Sel (bc1Pack c0 c1 v) p.val = v[p] := by
  refine ⟨?_, ?_, fun p => ?_⟩
  · rw [bc1C0_bc1Pack, Nat.mod_eq_of_lt h0]
  · rw [bc1C1_bc1Pack, Nat.mod_eq_of_lt h1]
  · rw [bc1Sel_bc1Pack]; exact Nat.mod_eq_of_lt (Nat.lt_succ_of_le (hv p))

/-! ## The error of a packed block is the error of the choice (44_quantizer.md R214 to R216) -/

theorem errBc1_bc1Pack (per mode : Nat) (cfg2 : Word) (tile : Vector Word 16) {c0 c1 : Nat} {v : Vector Nat 16}
    (h0 : c0 < 2 ^ 16) (h1 : c1 < 2 ^ 16) (hv : ∀ p : Fin 16, v[p] ≤ 3) :
    errBc1 per cfg2 (bc1Decode mode (bc1Pack c0 c1 v)) tile =
      ∑ p : Fin 16, rgbTerm per cfg2 (entry (bc1Pal mode c0 c1) v[p]) (tilePixel tile p) := by
  obtain ⟨hc0, hc1, hsel⟩ := bc1Pack_read h0 h1 hv
  simp only [errBc1_eq_sum, bc1Decode_getElem, hc0, hc1, hsel]

theorem errBc1_sel1 (cfg0 cfg2 : Word) (tile : Vector Word 16) {c0 c1 : Nat} (h0 : c0 < 2 ^ 16) (h1 : c1 < 2 ^ 16) :
    errBc1 (cfgPerceptual cfg0) cfg2
      (bc1Decode (cfgBc1Mode cfg0) (bc1Pack c0 c1 (sel1 cfg0 cfg2 tile c0 c1))) tile =
      sel1Err cfg0 cfg2 tile c0 c1 := by
  rw [errBc1_bc1Pack _ _ _ _ h0 h1 (sel1_le cfg0 cfg2 tile c0 c1), sel1Err_eq_sum]
  rfl

theorem sel1Err_le (cfg0 cfg2 : Word) (tile : Vector Word 16) {c0 c1 : Nat} (h0 : c0 < 2 ^ 16) (h1 : c1 < 2 ^ 16) :
    sel1Err cfg0 cfg2 tile c0 c1 ≤ maxError := by
  rw [← errBc1_sel1 cfg0 cfg2 tile h0 h1]
  exact errBc1_le _ _ (byteRange_bc1Decode _ _) _

theorem errBc4_bc4Pack (t : Vector Nat 16) {e0 e1 : Nat} {v : Vector Nat 16} (h0 : e0 ≤ 255) (h1 : e1 ≤ 255)
    (hv : ∀ p : Fin 16, v[p] ≤ 7) :
    errBc4 (bc4Values (bc4Pack e0 e1 v)) t = ∑ p : Fin 16, sqDiff ((bc4Pal e0 e1).getD v[p] 0) t[p] := by
  obtain ⟨he0, he1, hsel⟩ := bc4Pack_fields h0 h1 hv
  simp only [errBc4_eq_sum, bc4Values_getElem, he0, he1, hsel]

theorem errBc4_sel4 (t : Vector Nat 16) {e0 e1 : Nat} (h0 : e0 ≤ 255) (h1 : e1 ≤ 255) :
    errBc4 (bc4Values (bc4Pack e0 e1 (sel4 t e0 e1))) t = sel4Err t e0 e1 := by
  rw [errBc4_bc4Pack t h0 h1 (sel4_le t e0 e1), sel4Err_eq_sum]

/-! ## The registers that hold a block (44_quantizer.md R214 to R216, R235, R243, R244) -/

/-- BLOCK holds the two halves, SEL the two channels of selectors, ERR the error. -/
structure HoldsBlock (low high : Nat) (ch0 ch1 : Vector Nat 16) (e : Nat) (t : State) : Prop where
  low : blockLow t.block = low
  high : blockHigh t.block = high
  ch0 (p : Fin 16) : selNibble t.sel 0 p = ch0[p]
  ch1 (p : Fin 16) : selNibble t.sel 1 p = ch1[p]
  err : t.err.toNat = e

/-- What is written to BLOCK, SEL and ERR is held there when it fits. -/
theorem holdsBlock_of_written {low high e : Nat} {ch0 ch1 : Vector Nat 16} {t : State} (hlow : low < 2 ^ 64)
    (hhigh : high < 2 ^ 64) (h0 : ∀ p : Fin 16, ch0[p] ≤ 7) (h1 : ∀ p : Fin 16, ch1[p] ≤ 7) (he : e ≤ maxError)
    (hblock : t.block = blockOf low high) (hsel : t.sel = selWords ch0 ch1) (herr : t.err = BitVec.ofNat 32 e) :
    HoldsBlock low high ch0 ch1 e t where
  low := by rw [hblock, blockLow_blockOf _ _ hlow]
  high := by rw [hblock, blockHigh_blockOf _ _ hhigh]
  ch0 p := by
    rw [hsel, selNibble_selWords_zero]
    exact Nat.mod_eq_of_lt ((h0 p).trans_lt (by decide))
  ch1 p := by
    rw [hsel, selNibble_selWords_one]
    exact Nat.mod_eq_of_lt ((h1 p).trans_lt (by decide))
  err := by rw [herr, toNat_err he]

theorem noSelectors_eq_zero (p : Fin 16) : noSelectors[p] = 0 := noSelectors_getElem p.val p.isLt

theorem noSelectors_le (n : Nat) (p : Fin 16) : noSelectors[p] ≤ n := by rw [noSelectors_eq_zero]; exact n.zero_le

/-! ## SELECT (44_quantizer.md R214 to R216) -/

theorem endpC0_eq (e : Word) : endpC0 e = (e.extractLsb' 0 16).toNat := slice_eq_extract e 15 0
theorem endpC1_eq (e : Word) : endpC1 e = (e.extractLsb' 16 16).toNat := slice_eq_extract e 31 16

theorem endpByte_le (e : Word) (j : Nat) : endpByte e j ≤ 255 := Nat.le_of_lt_succ (digit_lt 8 _ j)

/-- A weaker postcondition of a command that completes. -/
theorem completes_mono {i : Instr} {s : State} {ps : List Part} {P Q : State → Prop} (h : Completes i s ps P)
    (hPQ : ∀ t, P t → Q t) : Completes i s ps Q := by
  obtain ⟨t, hexec, hdone, hframe, hP⟩ := h
  exact ⟨t, hexec, hdone, hframe, hPQ t hP⟩

/-- SELECT.BC1 writes the block of the endpoints as given and their best selectors. -/
theorem selectBc1_completes {s : State} (hready : Ready .bc1 s) {c0 c1 : Nat} (h0 : c0 = endpC0 s.endp)
    (h1 : c1 = endpC1 s.endp) : Completes .selectBc1 s [.sel, .block, .out, .err] fun t =>
      HoldsBlock (bc1Pack c0 c1 (sel1 s.cfg0 s.cfg2 s.tile c0 c1)) 0 (sel1 s.cfg0 s.cfg2 s.tile c0 c1) noSelectors
        (sel1Err s.cfg0 s.cfg2 s.tile c0 c1) t ∧
      t.out = outWords (bc1Decode (cfgBc1Mode s.cfg0) (blockLow t.block)) := by
  subst h0 h1
  exact completes_of_checkOf (checkOf_of_ready (by decide) hready) ⟨holdsBlock_of_written (bc1Pack_lt _ _ _) (by decide)
    (fun p => (sel1_le _ _ _ _ _ p).trans (by decide)) (noSelectors_le 7)
    (sel1Err_le _ _ _ (endpC0_lt _) (endpC1_lt _)) rfl rfl rfl, rfl⟩

/-- Settles O49: the registers hold the packed block of the best selectors, whose fields are read back. -/
theorem selectBc1Result : Obligations.SelectBc1Result := by
  intro s hready
  simp only [← endpC0_eq, ← endpC1_eq, ← cfgBc1Mode_eq, ← cfgPerceptual_eq, ← bc1Allowed_eq]
  have h0 := endpC0_lt s.endp
  have h1 := endpC1_lt s.endp
  have hdone := selectBc1_completes hready rfl rfl
  generalize endpC0 s.endp = c0 at h0 hdone ⊢
  generalize endpC1 s.endp = c1 at h1 hdone ⊢
  have hbest := sel1_bestSelector s.cfg0 s.cfg2 s.tile c0 c1
  have hsum := sel1Err_eq_sum s.cfg0 s.cfg2 s.tile c0 c1
  have herr := errBc1_sel1 s.cfg0 s.cfg2 s.tile h0 h1
  obtain ⟨hc0, hc1, hsel⟩ := bc1Pack_read h0 h1 (sel1_le s.cfg0 s.cfg2 s.tile c0 c1)
  refine completes_mono hdone fun t ⟨h, hout⟩ => ?_
  simp only [hout, h.low, h.high, h.ch0, h.ch1, h.err, noSelectors_eq_zero, hc0, hc1, hsel, herr, and_true, true_and,
    implies_true]
  exact ⟨hbest, hsum⟩

theorem endpByte_eq (e : Word) : endpByte e 0 = (e.extractLsb' 0 8).toNat ∧ endpByte e 1 = (e.extractLsb' 8 8).toNat ∧
    endpByte e 2 = (e.extractLsb' 16 8).toNat ∧ endpByte e 3 = (e.extractLsb' 24 8).toNat :=
  ⟨digit_eq_extract e 8 0, digit_eq_extract e 8 1, digit_eq_extract e 8 2, digit_eq_extract e 8 3⟩

/-- The error of the best selectors of a channel of TILE. -/
theorem sel4Err_tileChannel_le (tile : Vector Word 16) (ch : Nat) {e0 e1 : Nat} (h0 : e0 ≤ 255) (h1 : e1 ≤ 255) :
    sel4Err (tileChannel tile ch) e0 e1 ≤ 16 * 255 ^ 2 := by
  rw [← errBc4_sel4 _ h0 h1]
  exact errBc4_bc4Values_le _ tile ch

/-- SELECT.BC4 writes the half of the endpoints as given and the best selectors of channel CH0. -/
theorem selectBc4_completes {s : State} (hready : Ready .bc4 s) {e0 e1 : Nat} (h0 : e0 = endpByte s.endp 0)
    (h1 : e1 = endpByte s.endp 1) {v : Vector Nat 16} (hv : v = tileChannel s.tile (cfgCh0 s.cfg0)) :
    Completes .selectBc4 s [.sel, .block, .out, .err] fun t =>
      HoldsBlock (bc4Pack e0 e1 (sel4 v e0 e1)) 0 (sel4 v e0 e1) noSelectors (sel4Err v e0 e1) t ∧
      t.out = outWords (bc4Decode (blockLow t.block)) := by
  subst h0 h1 hv
  have herr := sel4Err_tileChannel_le s.tile (cfgCh0 s.cfg0) (endpByte_le s.endp 0) (endpByte_le s.endp 1)
  exact completes_of_checkOf (checkOf_of_ready (by decide) hready) ⟨holdsBlock_of_written (bc4Pack_lt _ _ _) (by decide)
    (sel4_le _ _ _) (noSelectors_le 7) (herr.trans (by decide)) rfl rfl rfl, rfl⟩

/-- SELECT.BC5 does so for the channels CH0 and CH1. -/
theorem selectBc5_completes {s : State} (hready : Ready .bc5 s) {a0 a1 b0 b1 : Nat} (ha0 : a0 = endpByte s.endp 0)
    (ha1 : a1 = endpByte s.endp 1) (hb0 : b0 = endpByte s.endp 2) (hb1 : b1 = endpByte s.endp 3)
    {va vb : Vector Nat 16} (hva : va = tileChannel s.tile (cfgCh0 s.cfg0))
    (hvb : vb = tileChannel s.tile (cfgCh1 s.cfg0)) : Completes .selectBc5 s [.sel, .block, .out, .err] fun t =>
      HoldsBlock (bc4Pack a0 a1 (sel4 va a0 a1)) (bc4Pack b0 b1 (sel4 vb b0 b1)) (sel4 va a0 a1) (sel4 vb b0 b1)
        (sel4Err va a0 a1 + sel4Err vb b0 b1) t ∧
      t.out = outWords (bc5Decode (blockLow t.block) (blockHigh t.block)) := by
  subst ha0 ha1 hb0 hb1 hva hvb
  have herrA := sel4Err_tileChannel_le s.tile (cfgCh0 s.cfg0) (endpByte_le s.endp 0) (endpByte_le s.endp 1)
  have herrB := sel4Err_tileChannel_le s.tile (cfgCh1 s.cfg0) (endpByte_le s.endp 2) (endpByte_le s.endp 3)
  exact completes_of_checkOf (checkOf_of_ready (by decide) hready) ⟨holdsBlock_of_written (bc4Pack_lt _ _ _)
    (bc4Pack_lt _ _ _) (sel4_le _ _ _) (sel4_le _ _ _) ((Nat.add_le_add herrA herrB).trans (by decide)) rfl rfl rfl, rfl⟩

/-- Settles O50: each half is the packed half of the best selectors of its channel, whose fields are read back. -/
theorem selectBc4Bc5Result : Obligations.SelectBc4Bc5Result := by
  refine ⟨fun s hready => ?bc4, fun s hready => ?bc5⟩
  case bc4 =>
    obtain ⟨he0, he1, _, _⟩ := endpByte_eq s.endp
    have h0 := endpByte_le s.endp 0
    have h1 := endpByte_le s.endp 1
    have hdone := selectBc4_completes hready rfl rfl rfl
    simp only [he0, he1, cfgCh0_eq] at h0 h1 hdone
    intro e0 e1 v
    obtain ⟨hread0, hread1, hreadSel⟩ := bc4Pack_fields h0 h1 (sel4_le v e0 e1)
    refine completes_mono hdone fun t ⟨h, hout⟩ => ?_
    simp only [hout, h.low, h.high, h.ch0, h.ch1, h.err, noSelectors_eq_zero, and_true, true_and]
    exact ⟨sel4_bestSelector v e0 e1, hread0, hread1, hreadSel, (errBc4_sel4 v h0 h1).symm⟩
  case bc5 =>
    obtain ⟨he0, he1, he2, he3⟩ := endpByte_eq s.endp
    have h0 := endpByte_le s.endp 0
    have h1 := endpByte_le s.endp 1
    have h2 := endpByte_le s.endp 2
    have h3 := endpByte_le s.endp 3
    have hdone := selectBc5_completes hready rfl rfl rfl rfl rfl rfl
    simp only [he0, he1, he2, he3, cfgCh0_eq, cfgCh1_eq] at h0 h1 h2 h3 hdone
    intro a0 a1 b0 b1 va vb
    obtain ⟨hreadA0, hreadA1, hreadSelA⟩ := bc4Pack_fields h0 h1 (sel4_le va a0 a1)
    obtain ⟨hreadB0, hreadB1, hreadSelB⟩ := bc4Pack_fields h2 h3 (sel4_le vb b0 b1)
    refine completes_mono hdone fun t ⟨h, hout⟩ => ?_
    simp only [hout, h.low, h.high, h.ch0, h.ch1, h.err, true_and]
    exact ⟨sel4_bestSelector va a0 a1, sel4_bestSelector vb b0 b1, hreadA0, hreadA1, hreadB0, hreadB1,
      fun p => ⟨hreadSelA p, hreadSelB p⟩,
      (congrArg₂ (· + ·) (errBc4_sel4 va h0 h1) (errBc4_sel4 vb h2 h3)).symm⟩

end Sys2Proof.Machine
end

section
/-! Proofs about ENCODE.BC1 (44_quantizer.md R231 to R235): the pairs considered, the moves of a pass, the pair the
search ends with, the block written for it, and the statements on ENCODE.BC1. -/

namespace Sys2Proof.Machine

/-! ## Solid tiles (44_quantizer.md R231) -/

theorem allEqual_iff (v : Vector Nat 16) : allEqual v = true ↔ ∀ p : Fin 16, v[p] = v[0] := by
  simp only [allEqual, List.all_eq_true, decide_eq_true_eq, Vector.mem_toList_iff, Vector.mem_iff_getElem]
  constructor
  · exact fun h p => h _ ⟨p.val, p.isLt, rfl⟩
  · rintro h _ ⟨i, hi, rfl⟩
    exact h ⟨i, hi⟩

/-- The low 24 bits of two words agree when their three bytes do. -/
theorem extract_rgb_eq_iff (w v : Word) : w.extractLsb' 0 24 = v.extractLsb' 0 24 ↔
    ∀ c < 3, digit 8 w.toNat c = digit 8 v.toNat c := by
  rw [← BitVec.toNat_inj, toNat_extract, toNat_extract]
  constructor
  · intro h c hc
    interval_cases c <;> simp only [digit] <;> omega
  · intro h
    have h0 := h 0 (by decide)
    have h1 := h 1 (by decide)
    have h2 := h 2 (by decide)
    simp only [digit] at h0 h1 h2
    omega

theorem bc1Solid_iff (tile : Vector Word 16) : bc1Solid tile = true ↔
    ∀ p : Fin 16, tile[p].extractLsb' 0 24 = tile[0].extractLsb' 0 24 := by
  have hchannel (c : Nat) (p : Fin 16) (hc : c < 3) : (tileChannel tile c)[p] = digit 8 tile[p].toNat c := by
    rw [tileChannel_eq_extract tile (by omega), digit_eq_extract]
  have hsolid (c : Nat) (hc : c < 3) : allEqual (tileChannel tile c) = true ↔
      ∀ p : Fin 16, digit 8 tile[p].toNat c = digit 8 tile[0].toNat c := by
    rw [allEqual_iff]
    exact forall_congr' fun p => by rw [hchannel c p hc]; exact Eq.congr_right (hchannel c 0 hc)
  simp only [bc1Solid, Bool.and_eq_true, extract_rgb_eq_iff]
  rw [hsolid 0 (by decide), hsolid 1 (by decide), hsolid 2 (by decide)]
  constructor
  · rintro ⟨⟨h0, h1⟩, h2⟩ p c hc
    interval_cases c
    · exact h0 p
    · exact h1 p
    · exact h2 p
  · exact fun h => ⟨⟨fun p => h p 0 (by decide), fun p => h p 1 (by decide)⟩, fun p => h p 2 (by decide)⟩

/-! ## The pairs considered (44_quantizer.md R232, R233) -/

/-- The pairs the search considers before its passes, in order. -/
def bc1Pairs (cfg0 : Word) (tile : Vector Word 16) : List (Nat × Nat) :=
  (bc1Diagonals (cfgUber cfg0) tile).flatMap (bc1Considered (cfgUse3 cfg0))

theorem minOf_tileChannel (tile : Vector Word 16) {c : Nat} (hc : c < 4) : minOf (tileChannel tile c) =
    Finset.univ.inf' ⟨0, Finset.mem_univ 0⟩ fun p : Fin 16 => (tile[p].extractLsb' (8 * c) 8).toNat := by
  rw [tileChannel, minOf_eq _ fun p => channel_le tile p c]
  simp only [channel_tilePixel tile _ c hc]

theorem maxOf_tileChannel (tile : Vector Word 16) {c : Nat} (hc : c < 4) : maxOf (tileChannel tile c) =
    Finset.univ.sup' ⟨0, Finset.mem_univ 0⟩ fun p : Fin 16 => (tile[p].extractLsb' (8 * c) 8).toNat := by
  rw [tileChannel, maxOf_eq]
  simp only [channel_tilePixel tile _ c hc]

theorem minOf_tileChannel_le (tile : Vector Word 16) (c : Nat) : minOf (tileChannel tile c) ≤ 255 := by
  rw [tileChannel, minOf_eq _ fun p => channel_le tile p c]
  exact (Finset.inf'_le _ (Finset.mem_univ 0)).trans (channel_le tile 0 c)

theorem maxOf_tileChannel_le (tile : Vector Word 16) (c : Nat) : maxOf (tileChannel tile c) ≤ 255 := by
  rw [tileChannel, maxOf_eq]
  exact Finset.sup'_le _ _ fun p _ => channel_le tile p c

theorem q565_lt {r g b : Nat} (hr : r ≤ 255) (hg : g ≤ 255) (hb : b ≤ 255) : q565 r g b < 2 ^ 16 := by
  have h5r := q5_lt (Nat.lt_succ_of_le hr)
  have h6g := q6_lt (Nat.lt_succ_of_le hg)
  have h5b := q5_lt (Nat.lt_succ_of_le hb)
  rw [q565_eq r (Nat.lt_succ_of_le hg) (Nat.lt_succ_of_le hb)]
  omega

/-- UBER = 1 adds diagonals, and a larger UBER has the same. -/
theorem bc1Diagonals_subset (uber u : Nat) (tile : Vector Word 16) :
    ∀ d ∈ bc1Diagonals uber tile, d ∈ bc1Diagonals (u + 1) tile := by
  intro d hd
  unfold bc1Diagonals at hd ⊢
  rw [if_neg (Nat.succ_ne_zero u)]
  split at hd
  · rw [List.mem_singleton.1 hd]; exact List.mem_cons_self
  · exact hd

theorem bc1Diagonals_lt {uber : Nat} {tile : Vector Word 16} {d : Nat × Nat} (h : d ∈ bc1Diagonals uber tile) :
    d.1 < 2 ^ 16 ∧ d.2 < 2 ^ 16 := by
  have hmin := minOf_tileChannel_le tile
  have hmax := maxOf_tileChannel_le tile
  have hd : d ∈ bc1Diagonals 1 tile := bc1Diagonals_subset uber 0 tile d h
  simp only [bc1Diagonals, one_ne_zero, if_false, List.mem_cons, List.not_mem_nil, or_false] at hd
  rcases hd with rfl | rfl | rfl | rfl
  · exact ⟨q565_lt (hmax 0) (hmax 1) (hmax 2), q565_lt (hmin 0) (hmin 1) (hmin 2)⟩
  · exact ⟨q565_lt (hmax 0) (hmin 1) (hmax 2), q565_lt (hmin 0) (hmax 1) (hmin 2)⟩
  · exact ⟨q565_lt (hmax 0) (hmax 1) (hmin 2), q565_lt (hmin 0) (hmin 1) (hmax 2)⟩
  · exact ⟨q565_lt (hmax 0) (hmin 1) (hmin 2), q565_lt (hmin 0) (hmax 1) (hmax 2)⟩

theorem bc1Pairs_ne_nil (cfg0 : Word) (tile : Vector Word 16) : bc1Pairs cfg0 tile ≠ [] := by
  obtain ⟨d, l, hd⟩ : ∃ d l, bc1Diagonals (cfgUber cfg0) tile = d :: l := by
    unfold bc1Diagonals
    split <;> exact ⟨_, _, rfl⟩
  rw [bc1Pairs, hd, List.flatMap_cons]
  exact fun h => bc1Considered_ne_nil _ d (List.append_eq_nil_iff.1 h).1

/-- Both words fit into ENDP, and without 3-colour blocks the first is not below the second (44_quantizer.md R235). -/
def LegalPair (use3 : Nat) (c : Nat × Nat) : Prop := c.1 < 2 ^ 16 ∧ c.2 < 2 ^ 16 ∧ (use3 = 0 → c.2 ≤ c.1)

theorem legalPair_bc1Considered {use3 : Nat} {d c : Nat × Nat} (h1 : d.1 < 2 ^ 16) (h2 : d.2 < 2 ^ 16)
    (h : c ∈ bc1Considered use3 d) : LegalPair use3 c := by
  unfold bc1Considered at h
  unfold LegalPair
  split_ifs at h with hne huse3
  · rcases List.mem_pair.1 h with rfl | rfl <;> dsimp only <;> omega
  · obtain rfl := List.mem_singleton.1 h
    dsimp only; omega
  · obtain rfl := List.mem_singleton.1 h
    dsimp only; omega

theorem legalPair_bc1Pairs {cfg0 : Word} {tile : Vector Word 16} {c : Nat × Nat} (h : c ∈ bc1Pairs cfg0 tile) :
    LegalPair (cfgUse3 cfg0) c := by
  obtain ⟨d, hd, hc⟩ := List.mem_flatMap.1 h
  obtain ⟨h1, h2⟩ := bc1Diagonals_lt hd
  exact legalPair_bc1Considered h1 h2 hc

/-! ## The neighbours of a pair (44_quantizer.md R234) -/

/-- A word with one of its fields moved by 1, in the order of a pass. -/
def movedWords (c : Nat) : List Nat := fields565.flatMap fun fld => [true, false].filterMap (nudge c fld)

theorem movedWords_eq (c : Nat) : movedWords c = fields565.flatMap fun fld =>
    (if c / 2 ^ fld.1 % 2 ^ fld.2 + 1 < 2 ^ fld.2 then [c + 2 ^ fld.1] else []) ++
      if 0 < c / 2 ^ fld.1 % 2 ^ fld.2 then [c - 2 ^ fld.1] else [] := by
  simp only [movedWords, fields565, List.flatMap_cons, List.flatMap_nil]
  rw [nudge_moves c 11 5 (by decide), nudge_moves c 5 6 (by decide), nudge_moves c 0 5 (by decide)]

theorem movedWords_lt {c x : Nat} (hc : c < 2 ^ 16) (h : x ∈ movedWords c) : x < 2 ^ 16 := by
  rw [movedWords_eq, List.mem_flatMap] at h
  obtain ⟨fld, hfld, hx⟩ := h
  simp only [List.mem_append, List.mem_ite_nil_right, List.mem_singleton] at hx
  simp only [fields565, List.mem_cons, List.not_mem_nil, or_false] at hfld
  rcases hfld with rfl | rfl | rfl <;> dsimp only at hx <;> omega

theorem bc1Neighbours_eq (use3 : Nat) (c : Nat × Nat) : bc1Neighbours use3 c =
    (movedWords c.1).filterMap (fun x => orderPair (fourColour c.1 c.2 || decide (use3 = 0)) x c.2) ++
      (movedWords c.2).filterMap fun y => orderPair (fourColour c.1 c.2 || decide (use3 = 0)) c.1 y := by
  simp only [bc1Neighbours, movedWords, List.filterMap_flatMap, List.filterMap_filterMap]

theorem legalPair_orderPair {use3 x y : Nat} {four : Bool} {c : Nat × Nat} (hx : x < 2 ^ 16) (hy : y < 2 ^ 16)
    (hfour : use3 = 0 → four = true) (h : orderPair four x y = some c) : LegalPair use3 c := by
  unfold orderPair at h
  unfold LegalPair
  split_ifs at h with hf hxy
  · cases h; dsimp only; omega
  · cases h
    refine ⟨by dsimp only; omega, by dsimp only; omega, fun h0 => absurd (hfour h0) hf⟩

/-- A pass keeps the pair legal. -/
theorem legalPair_bc1Neighbours {use3 : Nat} {c n : Nat × Nat} (hc : LegalPair use3 c)
    (h : n ∈ bc1Neighbours use3 c) : LegalPair use3 n := by
  obtain ⟨h1, h2, _⟩ := hc
  have hfour : use3 = 0 → (fourColour c.1 c.2 || decide (use3 = 0)) = true := fun h0 => by simp [h0]
  rw [bc1Neighbours_eq, List.mem_append, List.mem_filterMap, List.mem_filterMap] at h
  rcases h with ⟨x, hx, hn⟩ | ⟨y, hy, hn⟩
  · exact legalPair_orderPair (movedWords_lt h1 hx) h2 hfour hn
  · exact legalPair_orderPair h1 (movedWords_lt h2 hy) hfour hn

/-! ## The pair the search ends with (44_quantizer.md R233 to R235) -/

theorem mem_of_firstBest {α : Type} {score : α → Nat} {l : List α} {b : α} (h : FirstBest score l b) : b ∈ l := by
  obtain ⟨l₁, l₂, rfl, _⟩ := h
  simp

theorem le_of_firstBest {α : Type} {score : α → Nat} {l : List α} {b : α} (h : FirstBest score l b) :
    ∀ x ∈ l, score b ≤ score x := by
  obtain ⟨l₁, l₂, rfl, hbefore, hafter⟩ := h
  intro x hx
  rcases List.mem_append.1 hx with hx | hx
  · exact (hbefore x hx).le
  · rcases List.mem_cons.1 hx with rfl | hx
    · exact le_rfl
    · exact hafter x hx

/-- The least candidate of a list that is not empty, whatever the default. -/
theorem firstLeast_getD {α : Type} (f : α → Nat) {l : List α} (h : l ≠ []) (d : α × Nat) :
    ((firstLeast f l).getD d).2 = f ((firstLeast f l).getD d).1 ∧ FirstBest f l ((firstLeast f l).getD d).1 := by
  obtain ⟨b, _, hb, _⟩ := firstLeast_spec f l h
  rw [hb]
  exact firstLeast_firstBest f l _ hb

section
variable (cfg0 cfg2 : Word) (tile : Vector Word 16)

/-- The error of a pair with its best selectors. -/
def bc1Score (c : Nat × Nat) : Nat := sel1Err cfg0 cfg2 tile c.1 c.2

theorem bc1Start_firstBest : (bc1Start cfg0 cfg2 tile).2 = bc1Score cfg0 cfg2 tile (bc1Start cfg0 cfg2 tile).1 ∧
    FirstBest (bc1Score cfg0 cfg2 tile) (bc1Pairs cfg0 tile) (bc1Start cfg0 cfg2 tile).1 :=
  firstLeast_getD (bc1Score cfg0 cfg2 tile) (bc1Pairs_ne_nil cfg0 tile) ((0, 0), 0)

theorem bc1Best_passesEnd : PassesEnd (bc1Score cfg0 cfg2 tile) (bc1Neighbours (cfgUse3 cfg0)) (cfgUber cfg0 - 1)
      (bc1Start cfg0 cfg2 tile).1 (bc1Best cfg0 cfg2 tile).1 ∧
    (bc1Best cfg0 cfg2 tile).2 = bc1Score cfg0 cfg2 tile (bc1Best cfg0 cfg2 tile).1 ∧
    (bc1Best cfg0 cfg2 tile).2 ≤ (bc1Start cfg0 cfg2 tile).2 := by
  obtain ⟨hscore, _⟩ := bc1Start_firstBest cfg0 cfg2 tile
  have hstart : bc1Start cfg0 cfg2 tile =
      ((bc1Start cfg0 cfg2 tile).1, bc1Score cfg0 cfg2 tile (bc1Start cfg0 cfg2 tile).1) := by rw [← hscore]
  have hbest : bc1Best cfg0 cfg2 tile = bc1Refine (bc1Score cfg0 cfg2 tile) (cfgUse3 cfg0) (cfgUber cfg0 - 1)
      ((bc1Start cfg0 cfg2 tile).1, bc1Score cfg0 cfg2 tile (bc1Start cfg0 cfg2 tile).1) := by rw [← hstart]; rfl
  rw [hscore, hbest]
  exact bc1Refine_passesEnd _ _ _ _

theorem legalPair_bc1Best : LegalPair (cfgUse3 cfg0) (bc1Best cfg0 cfg2 tile).1 := by
  obtain ⟨_, hfirst⟩ := bc1Start_firstBest cfg0 cfg2 tile
  obtain ⟨hpasses, _⟩ := bc1Best_passesEnd cfg0 cfg2 tile
  exact passesEnd_keeps (LegalPair (cfgUse3 cfg0)) _ _ (fun _ ha _ hc => legalPair_bc1Neighbours ha hc) _ _ _
    (legalPair_bc1Pairs (mem_of_firstBest hfirst)) hpasses

/-! ## The quantizer's answer (44_quantizer.md R231, R235) -/

theorem encBc1_solid (h : bc1Solid tile = true) : encBc1 cfg0 cfg2 tile =
    ⟨bc1SolidWord tile, bc1SolidWord tile, noSelectors, errBc1 (cfgPerceptual cfg0) cfg2
      (Vector.replicate 16 (entry (bc1Pal (cfgBc1Mode cfg0) (bc1SolidWord tile) (bc1SolidWord tile)) 0)) tile⟩ :=
  if_pos h

theorem encBc1_notSolid (h : bc1Solid tile = false) : encBc1 cfg0 cfg2 tile =
    ⟨(bc1Best cfg0 cfg2 tile).1.1, (bc1Best cfg0 cfg2 tile).1.2,
      sel1 cfg0 cfg2 tile (bc1Best cfg0 cfg2 tile).1.1 (bc1Best cfg0 cfg2 tile).1.2, (bc1Best cfg0 cfg2 tile).2⟩ :=
  if_neg (by simp [h])

theorem bc1SolidWord_lt : bc1SolidWord tile < 2 ^ 16 :=
  let ⟨hr, hg, hb, _⟩ := byteRange_tilePixel tile 0
  q565_lt hr hg hb

/-- The number of the block that ENCODE.BC1 makes. -/
def encodedBc1 : Nat :=
  bc1Pack (encBc1 cfg0 cfg2 tile).e0 (encBc1 cfg0 cfg2 tile).e1 (encBc1 cfg0 cfg2 tile).sels

theorem encBc1_legal : (encBc1 cfg0 cfg2 tile).e0 < 2 ^ 16 ∧ (encBc1 cfg0 cfg2 tile).e1 < 2 ^ 16 ∧
    (cfgUse3 cfg0 = 0 → (encBc1 cfg0 cfg2 tile).e1 ≤ (encBc1 cfg0 cfg2 tile).e0) ∧
    ∀ p : Fin 16, (encBc1 cfg0 cfg2 tile).sels[p] ≤ 3 := by
  cases h : bc1Solid tile with
  | true =>
    rw [encBc1_solid cfg0 cfg2 tile h]
    exact ⟨bc1SolidWord_lt tile, bc1SolidWord_lt tile, fun _ => le_rfl, noSelectors_le 3⟩
  | false =>
    rw [encBc1_notSolid cfg0 cfg2 tile h]
    obtain ⟨h0, h1, hordered⟩ := legalPair_bc1Best cfg0 cfg2 tile
    exact ⟨h0, h1, hordered, sel1_le _ _ _ _ _⟩

/-- ERR is the error of the decoded block. -/
theorem encBc1_err : (encBc1 cfg0 cfg2 tile).err =
    errBc1 (cfgPerceptual cfg0) cfg2 (bc1Decode (cfgBc1Mode cfg0) (encodedBc1 cfg0 cfg2 tile)) tile := by
  cases h : bc1Solid tile with
  | true =>
    have hlt := bc1SolidWord_lt tile
    rw [encodedBc1, encBc1_solid cfg0 cfg2 tile h, errBc1_bc1Pack _ _ _ _ hlt hlt (noSelectors_le 3), errBc1_eq_sum]
    simp
  | false =>
    obtain ⟨h0, h1, _⟩ := legalPair_bc1Best cfg0 cfg2 tile
    obtain ⟨_, herr, _⟩ := bc1Best_passesEnd cfg0 cfg2 tile
    rw [encodedBc1, encBc1_notSolid cfg0 cfg2 tile h, errBc1_sel1 _ _ _ h0 h1, herr]
    rfl

theorem encBc1_err_le : (encBc1 cfg0 cfg2 tile).err ≤ maxError := by
  rw [encBc1_err]
  exact errBc1_le _ _ (byteRange_bc1Decode _ _) _

/-- The fields of the block are the quantizer's answer. -/
theorem encodedBc1_fields : bc1C0 (encodedBc1 cfg0 cfg2 tile) = (encBc1 cfg0 cfg2 tile).e0 ∧
    bc1C1 (encodedBc1 cfg0 cfg2 tile) = (encBc1 cfg0 cfg2 tile).e1 ∧
    ∀ p : Fin 16, bc1Sel (encodedBc1 cfg0 cfg2 tile) p.val = (encBc1 cfg0 cfg2 tile).sels[p] := by
  obtain ⟨h0, h1, _, hsel⟩ := encBc1_legal cfg0 cfg2 tile
  exact bc1Pack_read h0 h1 hsel

end

/-! ## ENCODE.BC1 (44_quantizer.md R230, R235) -/

theorem toNat_endpOfBc1_of_lt {c0 c1 : Nat} (h0 : c0 < 2 ^ 16) (h1 : c1 < 2 ^ 16) :
    (endpOfBc1 c0 c1).toNat = c0 + 65536 * c1 := by
  rw [toNat_endpOfBc1, gather_cons, gather_cons, gather_nil]
  omega

/-- ENCODE.BC1 writes the block of the quantizer, its endpoints, selectors, decode and error. -/
theorem encodeBc1_completes {s : State} (hready : Ready .bc1 s) :
    Completes .encodeBc1 s [.endp, .sel, .block, .out, .err] fun t =>
      HoldsBlock (encodedBc1 s.cfg0 s.cfg2 s.tile) 0 (encBc1 s.cfg0 s.cfg2 s.tile).sels noSelectors
        (encBc1 s.cfg0 s.cfg2 s.tile).err t ∧
      t.endp.toNat = (encBc1 s.cfg0 s.cfg2 s.tile).e0 + 65536 * (encBc1 s.cfg0 s.cfg2 s.tile).e1 ∧
      t.out = outWords (bc1Decode (cfgBc1Mode s.cfg0) (blockLow t.block)) := by
  obtain ⟨h0, h1, _, hsel⟩ := encBc1_legal s.cfg0 s.cfg2 s.tile
  exact completes_of_checkOf (checkOf_of_ready (by decide) hready) ⟨holdsBlock_of_written (bc1Pack_lt _ _ _) (by decide)
    (fun p => (hsel p).trans (by decide)) (noSelectors_le 7) (encBc1_err_le _ _ _) rfl rfl rfl,
    toNat_endpOfBc1_of_lt h0 h1, rfl⟩

/-- Settles O53: the fields of the block are the quantizer's answer, which is legal (`encBc1_legal`) and whose error is
that of the decode (`encBc1_err`). -/
theorem encodeBc1Result : Obligations.EncodeBc1Result := by
  intro s hready
  simp only [← cfgBc1Mode_eq, ← cfgPerceptual_eq]
  obtain ⟨hc0, hc1, hsel⟩ := encodedBc1_fields s.cfg0 s.cfg2 s.tile
  obtain ⟨_, _, hordered, _⟩ := encBc1_legal s.cfg0 s.cfg2 s.tile
  refine completes_mono (encodeBc1_completes hready) fun t ⟨h, hendp, hout⟩ => ?_
  simp only [hout, hendp, h.low, h.high, h.ch0, h.ch1, h.err, noSelectors_eq_zero, hc0, hc1, hsel, and_true, true_and,
    implies_true]
  refine ⟨encBc1_err _ _ _, fun hsolid => ?_, fun huse3 => hordered ((slice_bit_eq_zero_iff s.cfg0 6).2 huse3)⟩
  rw [encBc1_solid _ _ _ ((bc1Solid_iff s.tile).2 hsolid)]
  exact ⟨rfl, rfl, noSelectors_eq_zero⟩

/-! ## The search in the words of R232 to R234 -/

/-- What a command that completes guarantees of its answer. -/
theorem post_of_completes {i : Instr} {s t : State} {ps : List Part} {P : State → Prop} (h : Completes i s ps P)
    (hexec : exec i s = .next t) : P t := by
  obtain ⟨u, hu, _, _, hP⟩ := h
  cases hexec.symm.trans hu
  exact hP

theorem cfgUse3_eq_one_iff (cfg0 : Word) : cfgUse3 cfg0 = 1 ↔ cfg0.getLsbD 6 = true := slice_bit_eq_one_iff cfg0 6

theorem bc1Considered_eq (cfg0 : Word) (d : Nat × Nat) : bc1Considered (cfgUse3 cfg0) d =
    if d.1 = d.2 then [(d.1, d.1)]
    else (max d.1 d.2, min d.1 d.2) :: if cfg0.getLsbD 6 then [(min d.1 d.2, max d.1 d.2)] else [] := by
  simp only [bc1Considered, ne_eq, ite_not, cfgUse3_eq_one_iff]

theorem orderPair_toList (four : Bool) (x y : Nat) : (orderPair four x y).toList =
    if four then if x = y then [] else [(max x y, min x y)] else [(min x y, max x y)] := by
  unfold orderPair
  split_ifs <;> rfl

/-- The order of a pass: 4-colour blocks stay so, and without 3-colour blocks every block is one. -/
theorem bc1Neighbours_eq_flatMap (cfg0 : Word) (c : Nat × Nat) : bc1Neighbours (cfgUse3 cfg0) c =
    ((movedWords c.1).flatMap fun x => (orderPair (decide (c.1 > c.2) || !cfg0.getLsbD 6) x c.2).toList) ++
      (movedWords c.2).flatMap fun y => (orderPair (decide (c.1 > c.2) || !cfg0.getLsbD 6) c.1 y).toList := by
  have huse3 : decide (cfgUse3 cfg0 = 0) = !cfg0.getLsbD 6 := by
    rw [cfgUse3, slice_bit]
    cases cfg0.getLsbD 6 <;> rfl
  rw [bc1Neighbours_eq, huse3, List.filterMap_eq_flatMap_toList, List.filterMap_eq_flatMap_toList]
  rfl

/-- The diagonals of R232 in the least and greatest channel values. -/
theorem bc1Diagonals_eq (cfg0 : Word) {tile : Vector Word 16} {mn mx : Nat → Nat}
    (hmn : ∀ c < 4, minOf (tileChannel tile c) = mn c) (hmx : ∀ c < 4, maxOf (tileChannel tile c) = mx c) :
    bc1Diagonals (cfgUber cfg0) tile =
      (q565 (mx 0) (mx 1) (mx 2), q565 (mn 0) (mn 1) (mn 2)) :: if (cfg0.extractLsb' 8 3).toNat = 0 then [] else
        [(q565 (mx 0) (mn 1) (mx 2), q565 (mn 0) (mx 1) (mn 2)),
          (q565 (mx 0) (mx 1) (mn 2), q565 (mn 0) (mn 1) (mx 2)),
          (q565 (mx 0) (mn 1) (mn 2), q565 (mn 0) (mx 1) (mx 2))] := by
  simp (disch := decide) only [bc1Diagonals, hmn, hmx, cfgUber_eq]
  split <;> rfl

/-- The error of a pair, its palette, selectors and terms given in the words of R210 to R213. -/
theorem bc1Score_eq (cfg0 cfg2 : Word) (tile : Vector Word 16) {term : Pixel → Fin 16 → Nat}
    (hterm : ∀ x p, term x p = rgbTerm (cfgPerceptual cfg0) cfg2 x (tilePixel tile p)) (c : Nat × Nat) :
    bestErr (bc1Pal (cfg0.extractLsb' 4 2).toNat c.1 c.2)
      (if c.1 > c.2 ∨ cfg0.getLsbD 7 = true then [0, 1, 2, 3] else [0, 1, 2]) term = bc1Score cfg0 cfg2 tile c := by
  rw [← bc1Allowed_eq, ← cfgBc1Mode_eq, funext fun x => funext (hterm x)]
  rfl

/-- Settles O54: what the statement writes out are the pairs considered, the neighbours and the score of the search, so
its start and its passes are those of `bc1Start_firstBest` and `bc1Best_passesEnd`. -/
theorem encodeBc1BeatsEveryCandidate : Obligations.EncodeBc1BeatsEveryCandidate := by
  intro s t hready hmixed hexec uber use3 ch mx mn diagonals considered moved ordered neighbours w sq term pal allowed
    score best
  have hsolid : bc1Solid s.tile = false := by
    rw [Bool.eq_false_iff]
    exact fun h => hmixed ((bc1Solid_iff s.tile).1 h)
  have hterm (x : Pixel) (p : Fin 16) :
      term x p = rgbTerm (cfgPerceptual s.cfg0) s.cfg2 x (tilePixel s.tile p) := by
    simp only [rgbTerm, sqDiff_eq_natAbs, weight_eq, tilePixel_eq]
    rfl
  have hscore : score = bc1Score s.cfg0 s.cfg2 s.tile := funext (bc1Score_eq s.cfg0 s.cfg2 s.tile hterm)
  have hconsidered : considered = bc1Pairs s.cfg0 s.tile := by
    have hdiagonals : diagonals = bc1Diagonals (cfgUber s.cfg0) s.tile :=
      (bc1Diagonals_eq s.cfg0 (fun _ => minOf_tileChannel s.tile) fun _ => maxOf_tileChannel s.tile).symm
    rw [bc1Pairs, ← hdiagonals]
    exact congrArg diagonals.flatMap (funext fun d => (bc1Considered_eq s.cfg0 d).symm)
  have hneighbours : neighbours = bc1Neighbours (cfgUse3 s.cfg0) := by
    funext c
    rw [bc1Neighbours_eq_flatMap, movedWords_eq, movedWords_eq]
    simp only [orderPair_toList]
    rfl
  have huber : uber = cfgUber s.cfg0 := (cfgUber_eq s.cfg0).symm
  obtain ⟨h, _, _⟩ := post_of_completes (encodeBc1_completes hready) hexec
  obtain ⟨hc0, hc1, hsel⟩ := encodedBc1_fields s.cfg0 s.cfg2 s.tile
  obtain ⟨hstart, hfirst⟩ := bc1Start_firstBest s.cfg0 s.cfg2 s.tile
  obtain ⟨hpasses, hend, hle⟩ := bc1Best_passesEnd s.cfg0 s.cfg2 s.tile
  have hanswer := encBc1_notSolid s.cfg0 s.cfg2 s.tile hsolid
  have hbest : best = (bc1Best s.cfg0 s.cfg2 s.tile).1 := by
    simp only [best, h.low, hc0, hc1, hanswer]
  have herr : t.err.toNat = (bc1Best s.cfg0 s.cfg2 s.tile).2 := by rw [h.err, hanswer]
  rw [hscore, hconsidered, hneighbours, huber, hbest, herr]
  refine ⟨⟨_, hfirst, hpasses⟩, fun c hc => ?_, hend, fun p => ?_⟩
  · calc (bc1Best s.cfg0 s.cfg2 s.tile).2
      _ ≤ (bc1Start s.cfg0 s.cfg2 s.tile).2 := hle
      _ = bc1Score s.cfg0 s.cfg2 s.tile (bc1Start s.cfg0 s.cfg2 s.tile).1 := hstart
      _ ≤ bc1Score s.cfg0 s.cfg2 s.tile c := le_of_firstBest hfirst c hc
  · rw [h.ch0, hanswer]
    simp only [hterm, allowed, pal, ← bc1Allowed_eq, ← cfgBc1Mode_eq]
    exact sel1_bestSelector s.cfg0 s.cfg2 s.tile _ _ p

end Sys2Proof.Machine
end

section
/-! Proofs about ENCODE.BC4 and ENCODE.BC5 (44_quantizer.md R240 to R244): the quantizer of one channel, the halves
written for one and for two channels, and the statement on them. -/

namespace Sys2Proof.Machine

/-! ## The quantizer of one channel (44_quantizer.md R240 to R242) -/

theorem windowValue_le (x r i : Nat) : windowValue x r i ≤ 255 := Nat.min_le_right _ _

theorem mem_bc4Candidates {mx mn r : Nat} {c : Nat × Nat} : c ∈ bc4Candidates mx mn r ↔
    ∃ i < 2 * r + 1, ∃ j < 2 * r + 1, c = (windowValue mx r i, windowValue mn r j) ∨
      c = (windowValue mn r j, windowValue mx r i) := by
  simp [bc4Candidates]

theorem bc4Candidates_le {mx mn r : Nat} {c : Nat × Nat} (h : c ∈ bc4Candidates mx mn r) : c.1 ≤ 255 ∧ c.2 ≤ 255 := by
  obtain ⟨i, _, j, _, rfl | rfl⟩ := mem_bc4Candidates.1 h
  · exact ⟨windowValue_le _ _ _, windowValue_le _ _ _⟩
  · exact ⟨windowValue_le _ _ _, windowValue_le _ _ _⟩

section
variable (r : Nat) (v : Vector Nat 16)

theorem bc4Best_firstBest : (bc4Best r v).2 = sel4Err v (bc4Best r v).1.1 (bc4Best r v).1.2 ∧
    FirstBest (fun c => sel4Err v c.1 c.2) (bc4Candidates (maxOf v) (minOf v) r) (bc4Best r v).1 :=
  firstLeast_getD _ (bc4Candidates_ne_nil _ _ _) ((0, 0), 0)

theorem encBc4_solid (h : ∀ p : Fin 16, v[p] = v[0]) : encBc4 r v = ⟨v[0], v[0], noSelectors, 0⟩ :=
  if_pos ((allEqual_iff v).2 h)

theorem encBc4_notSolid (h : ¬ ∀ p : Fin 16, v[p] = v[0]) : encBc4 r v =
    ⟨(bc4Best r v).1.1, (bc4Best r v).1.2, sel4 v (bc4Best r v).1.1 (bc4Best r v).1.2, (bc4Best r v).2⟩ :=
  if_neg (mt (allEqual_iff v).1 h)

/-- The number of the half that ENCODE makes for one channel. -/
def encodedBc4 : Nat := bc4Pack (encBc4 r v).e0 (encBc4 r v).e1 (encBc4 r v).sels

end

section
variable (r : Nat) {v : Vector Nat 16} (hv : ∀ p : Fin 16, v[p] ≤ 255)
include hv

theorem encBc4_le : (encBc4 r v).e0 ≤ 255 ∧ (encBc4 r v).e1 ≤ 255 ∧ ∀ p : Fin 16, (encBc4 r v).sels[p] ≤ 7 := by
  by_cases h : ∀ p : Fin 16, v[p] = v[0]
  · rw [encBc4_solid r v h]
    exact ⟨hv 0, hv 0, noSelectors_le 7⟩
  · obtain ⟨_, hfirst⟩ := bc4Best_firstBest r v
    obtain ⟨h0, h1⟩ := bc4Candidates_le (mem_of_firstBest hfirst)
    rw [encBc4_notSolid r v h]
    exact ⟨h0, h1, sel4_le v _ _⟩

/-- The fields of the half are the quantizer's answer. -/
theorem encodedBc4_fields : bc4E0 (encodedBc4 r v) = (encBc4 r v).e0 ∧ bc4E1 (encodedBc4 r v) = (encBc4 r v).e1 ∧
    ∀ p : Fin 16, bc4Sel (encodedBc4 r v) p.val = (encBc4 r v).sels[p] := by
  obtain ⟨h0, h1, hsel⟩ := encBc4_le r hv
  exact bc4Pack_fields h0 h1 hsel

/-- A solid channel decodes to itself. -/
theorem bc4Values_encodedBc4_solid (h : ∀ p : Fin 16, v[p] = v[0]) (p : Fin 16) :
    (bc4Values (encodedBc4 r v))[p] = v[p] := by
  obtain ⟨he0, he1, hsel⟩ := encodedBc4_fields r hv
  rw [bc4Values_getElem, he0, he1, hsel, encBc4_solid r v h, noSelectors_eq_zero, bc4Pal_six le_rfl, h p]
  rfl

/-- The error of the answer is the error of the decoded half. -/
theorem encBc4_err : (encBc4 r v).err = errBc4 (bc4Values (encodedBc4 r v)) v := by
  by_cases h : ∀ p : Fin 16, v[p] = v[0]
  · have hvalues := bc4Values_encodedBc4_solid r hv h
    simp only [errBc4_eq_sum, hvalues, sqDiff_self, Finset.sum_const_zero]
    rw [encBc4_solid r v h]
  · obtain ⟨hscore, hfirst⟩ := bc4Best_firstBest r v
    obtain ⟨h0, h1⟩ := bc4Candidates_le (mem_of_firstBest hfirst)
    rw [encodedBc4, encBc4_notSolid r v h, errBc4_sel4 v h0 h1, hscore]

theorem encBc4_err_le : (encBc4 r v).err ≤ 16 * 255 ^ 2 := by
  rw [encBc4_err r hv]
  exact errBc4_le (bc4Values_le _) hv

/-- The half is the one R240 to R242 ask for. -/
theorem bc4Encoding_encodedBc4 : Bc4Encoding r v (encodedBc4 r v) := by
  obtain ⟨he0, he1, hsel⟩ := encodedBc4_fields r hv
  refine ⟨fun h => ⟨?_, ?_, fun p => ⟨?_, bc4Values_encodedBc4_solid r hv h p⟩⟩, fun h => ⟨?_, fun p => ?_⟩⟩
  · rw [he0, encBc4_solid r v h]
  · rw [he1, encBc4_solid r v h]
  · rw [hsel, encBc4_solid r v h, noSelectors_eq_zero]
  · rw [he0, he1, encBc4_notSolid r v h]
    exact (bc4Best_firstBest r v).2
  · rw [he0, he1, hsel, encBc4_notSolid r v h]
    exact sel4_bestSelector v _ _ p

end

/-! ## ENCODE.BC4 and ENCODE.BC5 (44_quantizer.md R243, R244) -/

theorem toNat_endpOfBc5 {a0 a1 b0 b1 : Nat} (ha0 : a0 ≤ 255) (ha1 : a1 ≤ 255) (hb0 : b0 ≤ 255) (hb1 : b1 ≤ 255) :
    (endpOfBc5 a0 a1 b0 b1).toNat = a0 + 256 * a1 + 65536 * b0 + 16777216 * b1 := by
  simp only [endpOfBc5, gather_cons, gather_nil, BitVec.toNat_ofNat]
  omega

theorem toNat_endpOfBc4 {e0 e1 : Nat} (h0 : e0 ≤ 255) (h1 : e1 ≤ 255) : (endpOfBc4 e0 e1).toNat = e0 + 256 * e1 := by
  simp only [endpOfBc4, gather_cons, gather_nil, BitVec.toNat_ofNat]
  omega

/-- ENCODE.BC4 writes the half of channel CH0, its endpoints, selectors, decode and error. -/
theorem encodeBc4_completes {s : State} (hready : Ready .bc4 s) {r : Nat} (hr : r = cfgRadius s.cfg0)
    {v : Vector Nat 16} (hv : v = tileChannel s.tile (cfgCh0 s.cfg0)) :
    Completes .encodeBc4 s [.endp, .sel, .block, .out, .err] fun t =>
      HoldsBlock (encodedBc4 r v) 0 (encBc4 r v).sels noSelectors (encBc4 r v).err t ∧
      t.endp.toNat = (encBc4 r v).e0 + 256 * (encBc4 r v).e1 ∧ t.out = outWords (bc4Decode (blockLow t.block)) := by
  subst hr hv
  have hbytes := tileChannel_le s.tile (cfgCh0 s.cfg0)
  obtain ⟨h0, h1, hsel⟩ := encBc4_le (cfgRadius s.cfg0) hbytes
  have herr := encBc4_err_le (cfgRadius s.cfg0) hbytes
  exact completes_of_checkOf (checkOf_of_ready (by decide) hready) ⟨holdsBlock_of_written (bc4Pack_lt _ _ _) (by decide)
    hsel (noSelectors_le 7) (herr.trans (by decide)) rfl rfl rfl, toNat_endpOfBc4 h0 h1, rfl⟩

/-- ENCODE.BC5 does so for the channels CH0 and CH1. -/
theorem encodeBc5_completes {s : State} (hready : Ready .bc5 s) {r : Nat} (hr : r = cfgRadius s.cfg0)
    {va vb : Vector Nat 16} (hva : va = tileChannel s.tile (cfgCh0 s.cfg0))
    (hvb : vb = tileChannel s.tile (cfgCh1 s.cfg0)) :
    Completes .encodeBc5 s [.endp, .sel, .block, .out, .err] fun t =>
      HoldsBlock (encodedBc4 r va) (encodedBc4 r vb) (encBc4 r va).sels (encBc4 r vb).sels
        ((encBc4 r va).err + (encBc4 r vb).err) t ∧
      t.endp.toNat = (encBc4 r va).e0 + 256 * (encBc4 r va).e1 + 65536 * (encBc4 r vb).e0 +
        16777216 * (encBc4 r vb).e1 ∧
      t.out = outWords (bc5Decode (blockLow t.block) (blockHigh t.block)) := by
  subst hr hva hvb
  have hbytesA := tileChannel_le s.tile (cfgCh0 s.cfg0)
  have hbytesB := tileChannel_le s.tile (cfgCh1 s.cfg0)
  obtain ⟨ha0, ha1, hselA⟩ := encBc4_le (cfgRadius s.cfg0) hbytesA
  obtain ⟨hb0, hb1, hselB⟩ := encBc4_le (cfgRadius s.cfg0) hbytesB
  have herr := Nat.add_le_add (encBc4_err_le (cfgRadius s.cfg0) hbytesA) (encBc4_err_le (cfgRadius s.cfg0) hbytesB)
  exact completes_of_checkOf (checkOf_of_ready (by decide) hready) ⟨holdsBlock_of_written (bc4Pack_lt _ _ _)
    (bc4Pack_lt _ _ _) hselA hselB (herr.trans (by decide)) rfl rfl rfl, toNat_endpOfBc5 ha0 ha1 hb0 hb1, rfl⟩

/-- Settles O55: each half is the quantizer's answer for its channel (`bc4Encoding_encodedBc4`), and its error that of
the decode (`encBc4_err`). -/
theorem encodeBc4Bc5Result : Obligations.EncodeBc4Bc5Result := by
  refine ⟨fun s hready => ?bc4, fun s hready => ?bc5⟩
  case bc4 =>
    rw [← cfgRadius_eq, ← cfgCh0_eq]
    have hbytes := tileChannel_le s.tile (cfgCh0 s.cfg0)
    obtain ⟨he0, he1, hsel⟩ := encodedBc4_fields (cfgRadius s.cfg0) hbytes
    refine completes_mono (encodeBc4_completes hready rfl rfl) fun t ⟨h, hendp, hout⟩ => ?_
    simp only [hout, hendp, h.low, h.high, h.ch0, h.ch1, h.err, noSelectors_eq_zero, he0, he1, hsel, and_true, true_and,
      implies_true]
    exact ⟨bc4Encoding_encodedBc4 _ hbytes, encBc4_err _ hbytes⟩
  case bc5 =>
    rw [← cfgRadius_eq, ← cfgCh0_eq, ← cfgCh1_eq]
    have hbytesA := tileChannel_le s.tile (cfgCh0 s.cfg0)
    have hbytesB := tileChannel_le s.tile (cfgCh1 s.cfg0)
    obtain ⟨ha0, ha1, hselA⟩ := encodedBc4_fields (cfgRadius s.cfg0) hbytesA
    obtain ⟨hb0, hb1, hselB⟩ := encodedBc4_fields (cfgRadius s.cfg0) hbytesB
    refine completes_mono (encodeBc5_completes hready rfl rfl rfl) fun t ⟨h, hendp, hout⟩ => ?_
    simp only [hout, hendp, h.low, h.high, h.ch0, h.ch1, h.err, ha0, ha1, hselA, hb0, hb1, hselB, and_true, true_and,
      implies_true]
    exact ⟨bc4Encoding_encodedBc4 _ hbytesA, bc4Encoding_encodedBc4 _ hbytesB,
      congrArg₂ (· + ·) (encBc4_err _ hbytesA) (encBc4_err _ hbytesB)⟩

end Sys2Proof.Machine
end

section
/-! Proofs about BC7_SEARCH (44_quantizer.md R245 to R247): which blocks are candidates, that the set is not empty and
nests, which candidate is returned, and the statements on BC7_SEARCH and ENCODE.BC7. -/

namespace Sys2Proof.Machine

/-! ## The candidates (44_quantizer.md R246, properties 1 and 3) -/

theorem bc7Admitted_iff {maxPart mask : Nat} {blk : Vector Byte 16} : bc7Admitted maxPart mask blk = true ↔
    ∃ m, bc7ModeOf (blockBits blk) = some m ∧ mask / 2 ^ m % 2 = 1 ∧ ((bc7Mode m).pb ≠ 0 →
      bc7PartOf m (blockBits blk) < maxPart ∧ (m = 0 → bc7PartOf m (blockBits blk) < 16)) := by
  unfold bc7Admitted
  cases bc7ModeOf (blockBits blk) with
  | none => simp
  | some m =>
    simp only [Bool.and_eq_true, Bool.or_eq_true, decide_eq_true_eq, Option.some.injEq, exists_eq_left']
    exact and_congr_right fun _ => by tauto

/-- A larger partition bound admits more. -/
theorem bc7Admitted_mono {p p' mask : Nat} (hp : p ≤ p') {blk : Vector Byte 16} (h : bc7Admitted p mask blk = true) :
    bc7Admitted p' mask blk = true := by
  obtain ⟨m, hmode, hbit, hpart⟩ := bc7Admitted_iff.1 h
  refine bc7Admitted_iff.2 ⟨m, hmode, hbit, fun hpb => ?_⟩
  obtain ⟨hlt, hlow⟩ := hpart hpb
  exact ⟨hlt.trans_le hp, hlow⟩

theorem mem_bc7CandidateSet {tile : Vector Word 16} {u p mask : Nat} {b : Vector Byte 16} :
    b ∈ bc7CandidateSet tile u p mask ↔
      (b ∈ bc7Base tile mask ∨ ∃ u' ≤ u, ∃ p' ≤ p, b ∈ Config.bc7Candidates tile u' p' mask) ∧
      bc7Admitted p mask b = true := by
  simp only [bc7CandidateSet, List.mem_filter, List.mem_append, List.mem_flatMap, List.mem_range, Nat.lt_succ_iff]

/-- A larger budget keeps every candidate. -/
theorem bc7CandidateSet_mono {tile : Vector Word 16} {u u' p p' mask : Nat} (hu : u ≤ u') (hp : p ≤ p')
    {b : Vector Byte 16} (h : b ∈ bc7CandidateSet tile u p mask) : b ∈ bc7CandidateSet tile u' p' mask := by
  obtain ⟨hsource, hadmitted⟩ := mem_bc7CandidateSet.1 h
  refine mem_bc7CandidateSet.2 ⟨?_, bc7Admitted_mono hp hadmitted⟩
  rcases hsource with hbase | ⟨v, hv, q, hq, hmem⟩
  · exact .inl hbase
  · exact .inr ⟨v, hv.trans hu, q, hq.trans hp, hmem⟩

theorem blockBits_bc7Seed : ∀ m < 8, blockBits (blockOf (2 ^ m % 256) 0) = 2 ^ m := by decide

/-- The seed is a block of the lowest mode of the mask, in partition 0. -/
theorem bc7Admitted_bc7Seed {mask : Nat} (hmask : ∃ m < 8, mask / 2 ^ m % 2 = 1) :
    bc7Admitted 1 mask (bc7Seed mask) = true := by
  obtain ⟨k, hk, hone⟩ := hmask
  have hsome : ((List.range 8).find? fun m => mask / 2 ^ m % 2 = 1).isSome :=
    List.find?_isSome.2 ⟨k, List.mem_range.2 hk, decide_eq_true hone⟩
  obtain ⟨m, hfind⟩ := Option.isSome_iff_exists.1 hsome
  have hm : m < 8 := List.mem_range.1 (List.mem_of_find?_eq_some hfind)
  have hbit : mask / 2 ^ m % 2 = 1 := by simpa using List.find?_some hfind
  have hbits : blockBits (bc7Seed mask) = 2 ^ m := by rw [bc7Seed, hfind]; exact blockBits_bc7Seed m hm
  have hlt : 2 ^ m < 2 ^ (m + 1) := Nat.pow_lt_pow_succ (by decide)
  have hpart : bc7PartOf m (blockBits (bc7Seed mask)) = 0 := by
    rw [bc7PartOf, hbits, Nat.div_eq_of_lt hlt, Nat.zero_mod]
  refine bc7Admitted_iff.2 ⟨m, ?_, hbit, fun _ => ?_⟩
  · exact bc7ModeOf_eq _ m hm (by rw [hbits, Nat.mod_eq_of_lt hlt])
  · rw [hpart]; exact ⟨by decide, fun _ => by decide⟩

/-- With a mode and a partition admitted there is a candidate: one of the smallest budget, or else the seed. -/
theorem bc7CandidateSet_ne_nil {tile : Vector Word 16} {u p mask : Nat} (hmask : ∃ m < 8, mask / 2 ^ m % 2 = 1)
    (hp : 1 ≤ p) : bc7CandidateSet tile u p mask ≠ [] := by
  by_cases hoffered : (Config.bc7Candidates tile 0 1 mask).any (bc7Admitted 1 mask) = true
  · obtain ⟨b, hmem, hadmitted⟩ := List.any_eq_true.1 hoffered
    exact List.ne_nil_of_mem (mem_bc7CandidateSet.2
      ⟨.inr ⟨0, u.zero_le, 1, hp, hmem⟩, bc7Admitted_mono hp hadmitted⟩)
  · have hbase : bc7Seed mask ∈ bc7Base tile mask := by rw [bc7Base, if_neg hoffered]; exact List.mem_singleton_self _
    exact List.ne_nil_of_mem (mem_bc7CandidateSet.2
      ⟨.inl hbase, bc7Admitted_mono hp (bc7Admitted_bc7Seed hmask)⟩)

/-- What a candidate is, in the words of R246. -/
theorem bc7Candidate_spec {tile : Vector Word 16} {u p mask : Nat} {b : Vector Byte 16}
    (h : b ∈ bc7CandidateSet tile u p mask) : b[0] ≠ 0 ∧
      ∃ m < 8, bc7ModeOf (blockBits b) = some m ∧ mask / 2 ^ m % 2 = 1 ∧ ((bc7Mode m).pb ≠ 0 →
        bc7PartOf m (blockBits b) < p ∧ (m = 0 → bc7PartOf m (blockBits b) < 16)) := by
  obtain ⟨_, hadmitted⟩ := mem_bc7CandidateSet.1 h
  obtain ⟨m, hmode, hrest⟩ := bc7Admitted_iff.1 hadmitted
  refine ⟨fun hzero => ?_, m, lt_of_bc7ModeOf hmode, hmode, hrest⟩
  rw [bc7ModeOf_reserved hzero] at hmode
  cases hmode

/-! ## The candidate returned (44_quantizer.md R246, property 2) -/

/-- What ties with a least element is least. -/
theorem mem_leastOf_of_le {α : Type} {f : α → Nat} {l : List α} {w b : α} (hw : w ∈ leastOf f l) (hb : b ∈ l)
    (h : f b ≤ f w) : b ∈ leastOf f l := by
  obtain ⟨_, hleast⟩ := (mem_leastOf f l w).1 hw
  exact (mem_leastOf f l b).2 ⟨hb, fun x hx => h.trans (hleast x hx)⟩

theorem bc7Search_mem_bc7Winners {a : Config.SearchArgs}
    (h : bc7CandidateSet a.tile a.uber a.maxPart a.modeMask ≠ []) : bc7Search a ∈ bc7Winners a := by
  have hne : bc7Winners a ≠ [] :=
    leastOf_ne_nil _ _ (leastOf_ne_nil _ _ (leastOf_ne_nil _ _ (leastOf_ne_nil _ _ h)))
  obtain ⟨b, l, hl⟩ := List.exists_cons_of_ne_nil hne
  rw [bc7Search, hl]
  exact List.mem_cons_self

/-- BC7_SEARCH returns a candidate of least error, among those of lowest mode, among those of lowest partition. -/
theorem bc7Search_spec {a : Config.SearchArgs} (h : bc7CandidateSet a.tile a.uber a.maxPart a.modeMask ≠ []) :
    bc7Search a ∈ bc7CandidateSet a.tile a.uber a.maxPart a.modeMask ∧
    ∀ b ∈ bc7CandidateSet a.tile a.uber a.maxPart a.modeMask, bc7Score a (bc7Search a) ≤ bc7Score a b ∧
      (bc7Score a b ≤ bc7Score a (bc7Search a) →
        bc7ModeNumber (blockBits (bc7Search a)) ≤ bc7ModeNumber (blockBits b) ∧
        (bc7ModeNumber (blockBits b) ≤ bc7ModeNumber (blockBits (bc7Search a)) →
          bc7PartOf (bc7ModeNumber (blockBits (bc7Search a))) (blockBits (bc7Search a)) ≤
            bc7PartOf (bc7ModeNumber (blockBits b)) (blockBits b))) := by
  obtain ⟨hpart, _⟩ := (mem_leastOf _ _ _).1 (bc7Search_mem_bc7Winners h)
  obtain ⟨hmode, hleastPart⟩ := (mem_leastOf _ _ _).1 hpart
  obtain ⟨hscore, hleastMode⟩ := (mem_leastOf _ _ _).1 hmode
  obtain ⟨hmem, hleastScore⟩ := (mem_leastOf _ _ _).1 hscore
  refine ⟨hmem, fun b hb => ⟨hleastScore b hb, fun htie => ?_⟩⟩
  have hbScore := mem_leastOf_of_le hscore hb htie
  exact ⟨hleastMode b hbScore, fun htie' => hleastPart b (mem_leastOf_of_le hmode hbScore htie')⟩

/-- Settles O57: the candidates by `bc7Candidate_spec`, the result by `bc7Search_spec`, the nesting by
`bc7CandidateSet_mono`. -/
theorem bc7SearchProperties : Obligations.Bc7SearchProperties := by
  refine ⟨fun a hmask hmax => ?_, fun tile u u' p p' mask hu hp b => bc7CandidateSet_mono hu hp⟩
  have hne : bc7CandidateSet a.tile a.uber a.maxPart a.modeMask ≠ [] := bc7CandidateSet_ne_nil hmask hmax
  obtain ⟨hmem, hleast⟩ := bc7Search_spec hne
  refine ⟨hne, fun b hb => ?_, hmem, fun b hb => ?_⟩
  · obtain ⟨hzero, m, hm, hmode, hbit, hpart⟩ := bc7Candidate_spec hb
    have hnumber : bc7ModeNumber (blockBits b) = m := by rw [bc7ModeNumber, hmode]; rfl
    simp only [hnumber]
    exact ⟨hzero, hm, hbit, hpart⟩
  · obtain ⟨hscore, htie⟩ := hleast b hb
    rcases hscore.lt_or_eq with hlt | heq
    · exact .inl hlt
    · obtain ⟨hmode, htie'⟩ := htie heq.ge
      refine .inr ⟨heq, ?_⟩
      rcases hmode.lt_or_eq with hlt | heq'
      · exact .inl hlt
      · exact .inr ⟨heq', htie' heq'.ge⟩

/-! ## ENCODE.BC7 (44_quantizer.md R247) -/

/-- A bit of BC7_MODE_MASK is a bit of CFG1. -/
theorem cfgModeMask_bit_iff (cfg1 : Word) {m : Nat} (hm : m < 8) :
    cfgModeMask cfg1 / 2 ^ m % 2 = 1 ↔ cfg1.getLsbD m = true := by
  have hbit : (cfgModeMask cfg1).testBit m = cfg1.getLsbD m := by
    rw [cfgModeMask_eq, BitVec.testBit_toNat, BitVec.getLsbD_extractLsb']
    simp [hm]
  rw [← hbit, Nat.testBit_eq_decide_div_mod_eq, decide_eq_true_eq]

theorem exists_bit_of_ne_zero {n k : Nat} (hlt : n < 2 ^ k) (hne : n ≠ 0) : ∃ m < k, n / 2 ^ m % 2 = 1 := by
  obtain ⟨m, hm⟩ := Nat.exists_testBit_of_ne_zero hne
  refine ⟨m, ?_, by simpa [Nat.testBit_eq_decide_div_mod_eq] using hm⟩
  by_contra hge
  have hzero := Nat.testBit_lt_two_pow (hlt.trans_le (Nat.pow_le_pow_right (by decide) (Nat.le_of_not_lt hge)))
  rw [hzero] at hm
  cases hm

/-- A session of BC7 has candidates: its mode mask and its partition bound are not 0 (40_context.md R124). -/
theorem bc7CandidateSet_searchArgs_ne_nil {s : State} (hmask : s.cfg1.extractLsb' 0 8 ≠ 0)
    (hmax : 1 ≤ cfgMaxPart s.cfg1) :
    bc7CandidateSet (searchArgs s).tile (searchArgs s).uber (searchArgs s).maxPart (searchArgs s).modeMask ≠ [] := by
  refine bc7CandidateSet_ne_nil (exists_bit_of_ne_zero (slice_lt 7 0 _) ?_) hmax
  exact mt (cfgModeMask_eq_zero_iff s.cfg1).1 hmask

/-- ENCODE.BC7 writes the block of BC7_SEARCH, its decode and its error. -/
theorem encodeBc7_completes {s : State} (hready : Ready .bc7 s) :
    Completes .encodeBc7 s [.endp, .sel, .block, .out, .err] fun t =>
      t.block = bc7Search (searchArgs s) ∧ t.endp = 0 ∧ t.sel = Vector.replicate 4 0 ∧
      t.out = outWords (bc7Decode (blockBits t.block)) ∧
      t.err.toNat = bc7Score (searchArgs s) (bc7Search (searchArgs s)) :=
  completes_of_checkOf (checkOf_of_ready (by decide) hready)
    ⟨rfl, rfl, rfl, rfl, toNat_err (errBc7_le _ _ (byteRange_bc7Decode _) _)⟩

/-- Settles O56: the registers by `encodeBc7_completes`; the block returned is a candidate, so its mode and partition
are admitted. -/
theorem encodeBc7Result : Obligations.EncodeBc7Result := by
  intro s hready
  simp only [← cfgUber_eq, ← cfgPerceptual_eq, ← cfgModeMask_eq, ← cfgMaxPart_eq]
  refine completes_mono (encodeBc7_completes hready) fun t ⟨hblock, hendp, hsel, hout, herr⟩ => ?_
  refine ⟨hblock, hendp, fun k => by simp [hsel], hout, by rw [herr, hblock]; rfl, fun hmask hmax => ?_⟩
  have hmax' : 1 ≤ cfgMaxPart s.cfg1 :=
    Nat.one_le_iff_ne_zero.2 (mt (cfgMaxPart_eq_zero_iff s.cfg1).1 hmax)
  obtain ⟨hmem, _⟩ := bc7Search_spec (bc7CandidateSet_searchArgs_ne_nil hmask hmax')
  obtain ⟨hzero, m, hm, hmode, hbit, hpart⟩ := bc7Candidate_spec hmem
  rw [hblock]
  exact ⟨hzero, m, hm, hmode, (cfgModeMask_bit_iff s.cfg1 hm).1 hbit, fun hpb => (hpart hpb).1⟩

end Sys2Proof.Machine
end

section
/-! Proofs about the search depth (44_quantizer.md R249): a field of CFG0 or CFG1 raised by 1 leaves the others, a deeper
search considers every candidate of a shallower one, and the statement on ERR. -/

namespace Sys2Proof.Machine

/-! ## Raising a field by 1 (10_state.md R30, R31) -/

theorem toNat_add_of_lt {w : Word} (k : Nat) (h : w.toNat + k < 2 ^ 32) :
    (w + BitVec.ofNat 32 k).toNat = w.toNat + k := by
  rw [BitVec.toNat_add, BitVec.toNat_ofNat]
  omega

theorem cfg0_raiseUber {w : Word} (h : cfgUber w < 6) : cfgUber (w + 0x100) = cfgUber w + 1 ∧
    cfgFormat (w + 0x100) = cfgFormat w ∧ cfgPerceptual (w + 0x100) = cfgPerceptual w ∧
    cfgBc1Mode (w + 0x100) = cfgBc1Mode w ∧ cfgUse3 (w + 0x100) = cfgUse3 w ∧
    cfgUse3Black (w + 0x100) = cfgUse3Black w := by
  simp only [cfgUber, cfgFormat, cfgPerceptual, cfgBc1Mode, cfgUse3, cfgUse3Black, slice] at h ⊢
  have hlt := w.isLt
  have hsum : (w + 0x100).toNat = w.toNat + 0x100 := toNat_add_of_lt 0x100 (by omega)
  rw [hsum]
  omega

theorem cfg0_raiseRadius {w : Word} (h : cfgRadius w < 15) : cfgRadius (w + 0x1000) = cfgRadius w + 1 ∧
    cfgFormat (w + 0x1000) = cfgFormat w ∧ cfgCh0 (w + 0x1000) = cfgCh0 w ∧ cfgCh1 (w + 0x1000) = cfgCh1 w := by
  simp only [cfgRadius, cfgFormat, cfgCh0, cfgCh1, slice] at h ⊢
  have hlt := w.isLt
  have hsum : (w + 0x1000).toNat = w.toNat + 0x1000 := toNat_add_of_lt 0x1000 (by omega)
  rw [hsum]
  omega

theorem cfg1_raiseMaxPart {w : Word} (h : cfgMaxPart w < 64) : cfgMaxPart (w + 0x100) = cfgMaxPart w + 1 ∧
    cfgModeMask (w + 0x100) = cfgModeMask w := by
  simp only [cfgMaxPart, cfgModeMask, slice] at h ⊢
  have hlt := w.isLt
  have hsum : (w + 0x100).toNat = w.toNat + 0x100 := toNat_add_of_lt 0x100 (by omega)
  rw [hsum]
  omega

/-- A command stays ready when CFG0 keeps its format. -/
theorem ready_setCfg0 {f : Fmt} {s : State} {v : Word} (h : Ready f s) (hv : cfgFormat v = cfgFormat s.cfg0) :
    Ready f { s with cfg0 := v } := by
  obtain ⟨hctxv, hformat⟩ := h
  refine ⟨hctxv, ?_⟩
  rw [← cfgFormat_eq] at hformat ⊢
  exact hv.trans hformat

theorem ready_setCfg1 {f : Fmt} {s : State} (h : Ready f s) (v : Word) : Ready f { s with cfg1 := v } := h

/-! ## More candidates (44_quantizer.md R233, R242) -/

/-- The best of more candidates is no worse. -/
theorem firstBest_le_of_subset {α : Type} {score : α → Nat} {l l' : List α} {b b' : α} (hb : FirstBest score l b)
    (hb' : FirstBest score l' b') (hsub : ∀ x ∈ l, x ∈ l') : score b' ≤ score b :=
  le_of_firstBest hb' b (hsub b (mem_of_firstBest hb))

/-! ## ENCODE.BC1 (44_quantizer.md R232 to R234) -/

/-- One more pass does not raise the error. -/
theorem bc1Refine_succ_le (score : Nat × Nat → Nat) (use3 n : Nat) (best : (Nat × Nat) × Nat) :
    (bc1Refine score use3 (n + 1) best).2 ≤ (bc1Refine score use3 n best).2 := by
  induction n generalizing best with
  | zero =>
    simp only [bc1Refine]
    split
    · exact le_rfl
    · split
      · next hlt => exact hlt.le
      · exact le_rfl
  | succ n ih =>
    rw [bc1Refine, bc1Refine]
    split
    · exact le_rfl
    · split
      · exact ih _
      · exact le_rfl

section
variable {cfg0 cfg0' : Word} (hper : cfgPerceptual cfg0' = cfgPerceptual cfg0)
  (hmode : cfgBc1Mode cfg0' = cfgBc1Mode cfg0) (hblack : cfgUse3Black cfg0' = cfgUse3Black cfg0)
  (huse3 : cfgUse3 cfg0' = cfgUse3 cfg0) (huber : cfgUber cfg0' = cfgUber cfg0 + 1) (cfg2 : Word)
  (tile : Vector Word 16)

include hper hmode hblack in
theorem bc1Score_congr : bc1Score cfg0' cfg2 tile = bc1Score cfg0 cfg2 tile := by
  funext c
  simp only [bc1Score, sel1Err, bc1Allowed, hper, hmode, hblack]

theorem bc1Start_eq : bc1Start cfg0 cfg2 tile =
    (firstLeast (bc1Score cfg0 cfg2 tile) (bc1Pairs cfg0 tile)).getD ((0, 0), 0) := rfl

theorem bc1Best_eq : bc1Best cfg0 cfg2 tile = bc1Refine (bc1Score cfg0 cfg2 tile) (cfgUse3 cfg0) (cfgUber cfg0 - 1)
    (bc1Start cfg0 cfg2 tile) := rfl

include huse3 huber in
theorem bc1Pairs_subset : ∀ c ∈ bc1Pairs cfg0 tile, c ∈ bc1Pairs cfg0' tile := by
  intro c hc
  obtain ⟨d, hd, hc⟩ := List.mem_flatMap.1 hc
  refine List.mem_flatMap.2 ⟨d, ?_, by rwa [huse3]⟩
  rw [huber]
  exact bc1Diagonals_subset _ _ tile d hd

include huse3 huber in
theorem bc1Pairs_eq_of_pos (hpos : cfgUber cfg0 ≠ 0) : bc1Pairs cfg0' tile = bc1Pairs cfg0 tile := by
  simp only [bc1Pairs, bc1Diagonals, huber, huse3, hpos, Nat.succ_ne_zero, if_false]

include hper hmode hblack huse3 huber

/-- A larger UBER ends with no larger an error: UBER = 1 considers more pairs, a larger one makes one more pass from
the same start. -/
theorem bc1Best_le : (bc1Best cfg0' cfg2 tile).2 ≤ (bc1Best cfg0 cfg2 tile).2 := by
  have hscore := bc1Score_congr hper hmode hblack cfg2 tile
  by_cases hzero : cfgUber cfg0 = 0
  · obtain ⟨hstart, hfirst⟩ := bc1Start_firstBest cfg0 cfg2 tile
    obtain ⟨hstart', hfirst'⟩ := bc1Start_firstBest cfg0' cfg2 tile
    obtain ⟨_, _, hle⟩ := bc1Best_passesEnd cfg0' cfg2 tile
    have hnone : bc1Best cfg0 cfg2 tile = bc1Start cfg0 cfg2 tile := by rw [bc1Best_eq, hzero]; rfl
    rw [hscore] at hstart' hfirst'
    calc (bc1Best cfg0' cfg2 tile).2
      _ ≤ (bc1Start cfg0' cfg2 tile).2 := hle
      _ = bc1Score cfg0 cfg2 tile (bc1Start cfg0' cfg2 tile).1 := hstart'
      _ ≤ bc1Score cfg0 cfg2 tile (bc1Start cfg0 cfg2 tile).1 :=
        firstBest_le_of_subset hfirst hfirst' (bc1Pairs_subset huse3 huber tile)
      _ = (bc1Start cfg0 cfg2 tile).2 := hstart.symm
      _ = (bc1Best cfg0 cfg2 tile).2 := by rw [hnone]
  · have hstart : bc1Start cfg0' cfg2 tile = bc1Start cfg0 cfg2 tile := by
      rw [bc1Start_eq, bc1Start_eq, hscore, bc1Pairs_eq_of_pos huse3 huber tile hzero]
    have hpasses : cfgUber cfg0' - 1 = (cfgUber cfg0 - 1) + 1 := by omega
    rw [bc1Best_eq, bc1Best_eq, hscore, hstart, huse3, hpasses]
    exact bc1Refine_succ_le _ _ _ _

theorem encBc1_err_antitone : (encBc1 cfg0' cfg2 tile).err ≤ (encBc1 cfg0 cfg2 tile).err := by
  cases h : bc1Solid tile with
  | true => rw [encBc1_solid _ _ _ h, encBc1_solid _ _ _ h, hper, hmode]
  | false =>
    rw [encBc1_notSolid _ _ _ h, encBc1_notSolid _ _ _ h]
    exact bc1Best_le hper hmode hblack huse3 huber cfg2 tile

end

/-! ## ENCODE.BC4 and ENCODE.BC5 (44_quantizer.md R241) -/

/-- The window of a larger radius holds that of a smaller one, one place further in. -/
theorem windowValue_succ (x r i : Nat) : windowValue x (r + 1) (i + 1) = windowValue x r i := by
  unfold windowValue; congr 1; omega

theorem bc4Candidates_subset (mx mn r : Nat) : ∀ c ∈ bc4Candidates mx mn r, c ∈ bc4Candidates mx mn (r + 1) := by
  intro c hc
  obtain ⟨i, hi, j, hj, h⟩ := mem_bc4Candidates.1 hc
  refine mem_bc4Candidates.2 ⟨i + 1, by omega, j + 1, by omega, ?_⟩
  simpa only [windowValue_succ] using h

theorem encBc4_err_antitone (r : Nat) (v : Vector Nat 16) : (encBc4 (r + 1) v).err ≤ (encBc4 r v).err := by
  by_cases h : ∀ p : Fin 16, v[p] = v[0]
  · rw [encBc4_solid _ v h, encBc4_solid _ v h]
  · obtain ⟨hscore, hfirst⟩ := bc4Best_firstBest r v
    obtain ⟨hscore', hfirst'⟩ := bc4Best_firstBest (r + 1) v
    rw [encBc4_notSolid _ v h, encBc4_notSolid _ v h, hscore, hscore']
    have hle := firstBest_le_of_subset hfirst hfirst' (bc4Candidates_subset _ _ r)
    exact hle

/-! ## ENCODE.BC7 (44_quantizer.md R246) -/

/-- A larger budget returns a block of no larger an error. -/
theorem bc7Search_antitone {a : Config.SearchArgs} (h : bc7CandidateSet a.tile a.uber a.maxPart a.modeMask ≠ [])
    {u p : Nat} (hu : a.uber ≤ u) (hp : a.maxPart ≤ p) :
    bc7Score { a with uber := u, maxPart := p } (bc7Search { a with uber := u, maxPart := p }) ≤
      bc7Score a (bc7Search a) := by
  obtain ⟨hmem, _⟩ := bc7Search_spec h
  have hmem' : bc7Search a ∈ bc7CandidateSet a.tile u p a.modeMask := bc7CandidateSet_mono hu hp hmem
  obtain ⟨_, hleast⟩ := bc7Search_spec (a := { a with uber := u, maxPart := p }) (List.ne_nil_of_mem hmem')
  obtain ⟨hscore, _⟩ := hleast _ hmem'
  exact hscore

/-- ENCODE.BC7 with a larger budget does not raise ERR. -/
theorem encodeBc7_err_le {s s' t t' : State} (hready : Ready .bc7 s) (hready' : Ready .bc7 s')
    (hmask : s.cfg1.extractLsb' 0 8 ≠ 0) (hmax : 1 ≤ cfgMaxPart s.cfg1) {u p : Nat} (hu : cfgUber s.cfg0 ≤ u)
    (hp : cfgMaxPart s.cfg1 ≤ p) (hargs : searchArgs s' = { searchArgs s with uber := u, maxPart := p })
    (hexec : exec .encodeBc7 s = .next t) (hexec' : exec .encodeBc7 s' = .next t') : t'.err ≤ t.err := by
  obtain ⟨_, _, _, _, herr⟩ := post_of_completes (encodeBc7_completes hready) hexec
  obtain ⟨_, _, _, _, herr'⟩ := post_of_completes (encodeBc7_completes hready') hexec'
  rw [BitVec.le_def, herr, herr', hargs]
  exact bc7Search_antitone (bc7CandidateSet_searchArgs_ne_nil hmask hmax) hu hp

/-- Settles O58: each format's error by its own lemma, the raised field leaving the other fields of the word alone. -/
theorem encodeErrorFallsWithDepth : Obligations.EncodeErrorFallsWithDepth := by
  intro s t t'
  simp only [← cfgUber_eq, ← cfgRadius_eq, ← cfgMaxPart_eq]
  refine ⟨fun hlt hready hexec hexec' => ?bc1, fun hlt hready hexec hexec' => ?bc4,
    fun hlt hready hexec hexec' => ?bc5, fun hlt hmask hmax hready hexec hexec' => ?bc7Uber,
    fun hmask hmax hlt hready hexec hexec' => ?bc7MaxPart⟩
  case bc1 =>
    obtain ⟨huber, hformat, hper, hmode, huse3, hblack⟩ := cfg0_raiseUber hlt
    obtain ⟨h, _⟩ := post_of_completes (encodeBc1_completes hready) hexec
    obtain ⟨h', _⟩ := post_of_completes (encodeBc1_completes (ready_setCfg0 hready hformat)) hexec'
    rw [BitVec.le_def, h.err, h'.err]
    exact encBc1_err_antitone hper hmode hblack huse3 huber s.cfg2 s.tile
  case bc4 =>
    obtain ⟨hradius, hformat, hch0, _⟩ := cfg0_raiseRadius hlt
    obtain ⟨h, _⟩ := post_of_completes (encodeBc4_completes hready rfl rfl) hexec
    obtain ⟨h', _⟩ := post_of_completes
      (encodeBc4_completes (ready_setCfg0 hready hformat) hradius.symm (by rw [hch0])) hexec'
    rw [BitVec.le_def, h.err, h'.err]
    exact encBc4_err_antitone _ _
  case bc5 =>
    obtain ⟨hradius, hformat, hch0, hch1⟩ := cfg0_raiseRadius hlt
    obtain ⟨h, _⟩ := post_of_completes (encodeBc5_completes hready rfl rfl rfl) hexec
    obtain ⟨h', _⟩ := post_of_completes (encodeBc5_completes (ready_setCfg0 hready hformat) hradius.symm
      (by rw [hch0]) (by rw [hch1])) hexec'
    rw [BitVec.le_def, h.err, h'.err]
    exact Nat.add_le_add (encBc4_err_antitone _ _) (encBc4_err_antitone _ _)
  case bc7Uber =>
    obtain ⟨huber, hformat, hper, _⟩ := cfg0_raiseUber hlt
    refine encodeBc7_err_le hready (ready_setCfg0 hready hformat) hmask hmax (Nat.le_succ _) le_rfl ?_ hexec hexec'
    simp only [searchArgs, huber, hper]
  case bc7MaxPart =>
    obtain ⟨hpart, hmodes⟩ := cfg1_raiseMaxPart hlt
    refine encodeBc7_err_le hready (ready_setCfg1 hready _) hmask hmax le_rfl (Nat.le_succ _) ?_ hexec hexec'
    simp only [searchArgs, hpart, hmodes]

end Sys2Proof.Machine
end

section
/-! Proofs about the life cycle of a command (60_exceptions.md): its issue, the unit's steps and its completion, the
checks and the code each gives, IRQ, what a result depends on, and the legal states that every step keeps. -/

namespace Sys2Proof.Machine

/-! ## Result codes (60_exceptions.md R260, R261) -/

theorem code_eq_zero_iff (c : ResultCode) : c.code = 0 ↔ c = .success := by
  cases c <;> decide

/-- The four numbers RESULT can hold after a completion. -/
theorem code_of_raised {c : ResultCode} (h : Raised c) : c.code = 0 ∨ c.code = 2 ∨ c.code = 3 ∨ c.code = 4 := by
  rcases h with rfl | rfl | rfl | rfl <;> decide

/-! ## The answer of a command and of a word (60_exceptions.md R262 to R264, R266) -/

/-- A command completes with the code of its checks, on its effect when they pass and on the old state when not. -/
theorem exec_eq_next (i : Instr) (s : State) :
    exec i s = .next (finish (checkOf i s) (if checkOf i s = .success then effectOf i s else s)) := by
  rw [exec_eq, conclude]
  split
  · next hcheck => rw [hcheck]
  · rfl

/-- RESULT after a completion is the code of the command's checks. -/
theorem result_of_exec {i : Instr} {s t : State} (h : exec i s = .next t) : t.result = (checkOf i s).code := by
  rw [exec_eq_next] at h
  cases h; rfl

theorem runWord_of_decodeWord {w : Word} {i : Instr} (h : decodeWord w = .ok i) (s : State) :
    runWord w s = exec i s := by
  rw [runWord, h]

/-- A word that is no command's word ends with BadParameter (R263). -/
theorem runWord_illegal {w : Word} (hw : ∀ i, w ≠ encode i) (s : State) :
    runWord w s = .next (finish .badParameter s) := by
  cases hdec : decodeWord w with
  | ok i => exact absurd ((decodeWord_eq_ok_iff w i).1 hdec) (hw i)
  | error r => rw [runWord, hdec]; rfl

/-- RESULT after the completion of any word is a raised code. -/
theorem result_of_runWord {w : Word} {s t : State} (h : runWord w s = .next t) :
    t.result = 0 ∨ t.result = 2 ∨ t.result = 3 ∨ t.result = 4 := by
  rcases runWord_cases w s t h with ⟨i, _, hexec⟩ | rfl
  · rw [result_of_exec hexec]
    exact code_of_raised (raised_checkOf i s)
  · exact .inr (.inl rfl)

/-- Settles O28: the answer is a completion with a raised code, by `exec_eq_next`. -/
theorem everyCommandCompletes : Obligations.EveryCommandCompletes := fun i s =>
  ⟨_, exec_eq_next i s, rfl, rfl, code_of_raised (raised_checkOf i s)⟩

/-- Settles O29: of the two ways a command ends, the one with RESULT other than 0 writes STATUS alone. -/
theorem failedCommandChangesOnlyStatus : Obligations.FailedCommandChangesOnlyStatus := by
  intro w s t hrun hresult
  rcases runWord_cases w s t hrun with ⟨i, _, hexec⟩ | rfl
  · rcases exec_cases i s t hexec with ⟨_, ⟨hzero, _⟩, _⟩ | ⟨_, rfl⟩
    · exact absurd hzero hresult
    · rfl
  · rfl

/-! ## The steps of the unit (60_exceptions.md R266, R276) -/

theorem step_of_noScript {s : State} (h : s.host = []) : step s = unitStep s := by
  rw [step, h]

/-- A tick of the script is a unit step. -/
theorem step_of_tick {s : State} {rest : List HostOp} (h : s.host = .tick :: rest) :
    step s = unitStep (s.setHost rest) :=
  step_of_event h

theorem step_of_wait {s : State} {rest : List HostOp} (h : s.host = .wait :: rest) : step s = waitStep rest s :=
  step_of_event h

theorem unitStep_last {s : State} {f : InFlight} (hlatch : s.latch = some f) (hlast : f.remaining ≤ 1) :
    unitStep s = runWord f.word s := by
  simp only [unitStep, hlatch, if_pos hlast]

theorem step_of_last_tick {s : State} {f : InFlight} {rest : List HostOp} (hhost : s.host = .tick :: rest)
    (hlatch : s.latch = some f) (hlast : f.remaining ≤ 1) : step s = runWord f.word (s.setHost rest) :=
  (step_of_tick hhost).trans (unitStep_last (s := s.setHost rest) hlatch hlast)

theorem unitStep_earlier {s : State} {f : InFlight} (hlatch : s.latch = some f) (hmore : 1 < f.remaining) :
    unitStep s = .next (s.setLatch (some ⟨f.word, f.remaining - 1⟩)) := by
  simp only [unitStep, hlatch, if_neg (Nat.not_le.2 hmore)]

theorem waitStep_busy {s : State} {f : InFlight} (hlatch : s.latch = some f) (rest : List HostOp) :
    waitStep rest s = runWord f.word s := by
  rw [waitStep, hlatch]

theorem waitStep_idle {s : State} (hlatch : s.latch = none) (rest : List HostOp) :
    waitStep rest s = .next ((s.setHost rest).pushRead (readReg s .status)) := by
  rw [waitStep, hlatch]

/-- A word of 32 bits is loaded as it is (entry 2). -/
theorem withFetchWord_toNat (s : State) (w : Word) : s.withFetchWord 32 w.toNat = loadCommand w s := by
  rw [State.withFetchWord, Nat.mod_eq_of_lt w.isLt, BitVec.ofNat_toNat, BitVec.setWidth_eq]

/-- A loaded word has its last unit step next. -/
theorem step_loadCommand (w : Word) (s : State) : step (loadCommand w s) = runWord w (loadCommand w s) :=
  (step_of_noScript (loadCommand_host w s)).trans (unitStep_last (loadCommand_latch w s) le_rfl)

/-- Settles O21: each form of the last unit step runs the latched word, which is that of the command. -/
theorem stepRunsTheDecodedCommand : Obligations.StepRunsTheDecodedCommand := by
  intro s f i rest hlatch hdec
  have hrun := runWord_of_decodeWord hdec
  refine ⟨fun hhost hlast => ?alone, fun hhost hlast => ?tick, fun hhost => ?wait, fun hhost hmore => ?earlier, ?loaded⟩
  case alone => rw [step_of_noScript hhost, unitStep_last hlatch hlast, hrun]
  case tick => exact (step_of_last_tick hhost hlatch hlast).trans (hrun _)
  case wait => rw [step_of_wait hhost, waitStep_busy hlatch, hrun]
  case earlier => rw [step_of_noScript hhost, unitStep_earlier hlatch hmore]; rfl
  case loaded => rw [withFetchWord_toNat, step_loadCommand, hrun]

/-! ## Issue (60_exceptions.md R263, R265) -/

/-- A CMD write with BUSY = 0 is an issue. -/
theorem writeReg_cmd_idle {s : State} (h : s.busy = false) (w : Word) : writeReg .cmd w s = issue w s :=
  writeReg_idle s .cmd w h

/-- Settles O20: the latency is one more than the open part of BCU_LATENCY (entry 4). -/
theorem issueLatchesTheWord : Obligations.IssueLatchesTheWord := by
  refine ⟨fun w x => Config.bcuLatencyExtra w x + 1, fun _ _ => Nat.le_add_left 1 _, fun s w => ⟨fun hidle => ?_, ?_⟩⟩
  · rw [writeReg_cmd_idle hidle]
    exact ⟨rfl, rfl⟩
  · exact fun hbusy => writeReg_busy s .cmd w hbusy rfl

/-- Settles O4: a word is issued whether or not it decodes, and `runWord_illegal` completes it. -/
theorem illegalWordIsBadParameter : Obligations.IllegalWordIsBadParameter := by
  intro w hw
  refine ⟨fun s hidle => ⟨bcuLatency w s, Nat.le_add_left 1 _, ?_⟩, fun s hhost hlatch => ?_⟩
  · rw [writeOffset_of_reg s 0x000 w .cmd rfl, writeReg_cmd_idle hidle]
    rfl
  · rw [step_of_noScript hhost, unitStep_last hlatch le_rfl, runWord_illegal hw]
    rfl

/-! ## IRQ (60_exceptions.md R267, R268; 10_state.md R41) -/

/-- CTRL reads IE in bit 0. -/
theorem ctrlWord_bit (s : State) : s.ctrlWord.getLsbD 0 = s.ie := by
  refine getLsbD_of_div_mod ?_
  have hie := s.ie.toNat_le
  rw [State.ctrlWord, BitVec.toNat_ofNat]
  omega

/-- IRQ is low wherever DONE is. -/
theorem irq_of_not_done {s : State} (h : s.done = false) : s.irq = false := by
  rw [State.irq, h, Bool.and_false]

/-- Settles O18: IRQ by the fields of CTRL and STATUS, its changes by what a completion, a write and an issue do to IE
and DONE. -/
theorem interruptLevel : Obligations.InterruptLevel := by
  refine ⟨fun s => ?level, fun w s t hrun => ?completion, fun s v => ?ctrl, fun s v hbit => ?ack,
    fun s w hidle => ?issue⟩
  case level =>
    obtain ⟨_, hdone, _⟩ := statusWord_fields s
    simp only [readReg, ctrlWord_bit, hdone, State.irq]
  case completion =>
    obtain ⟨_, hdone, _, hie, _⟩ := runWord_frame w s t hrun
    rw [State.irq, hdone, hie, Bool.and_true]
  case ctrl => rw [writeReg_ctrl]; rfl
  case ack =>
    rw [writeReg_status]
    exact irq_of_not_done (by rw [ackStatus_done, hbit, Bool.not_true, Bool.and_false])
  case issue =>
    rw [writeReg_cmd_idle hidle]
    exact irq_of_not_done (issue_done w s)

/-! ## The latency (60_exceptions.md R266; 70_reset_and_hazards.md R294) -/

/-- Giving the script that a state has changes nothing. -/
theorem setHost_eq_self {s : State} {script : List HostOp} (h : s.host = script) : s.setHost script = s := by
  subst h; rfl

/-- As many ticks as unit steps remain give the completion on the registers as they were: the earlier ones
only count. -/
theorem run_ticks {w : Word} {t : State} {rest : List HostOp} (n : Nat) : ∀ s : State, s.latch = some ⟨w, n + 1⟩ →
    s.host = List.replicate (n + 1) .tick ++ rest → runWord w (s.setHost rest) = .next t →
    Host.Core.run Sys2Proof.core (n + 1) s = .next t := by
  induction n with
  | zero =>
    intro s hlatch hhost hrun
    rw [run_succ 0 s t ((step_of_last_tick hhost hlatch le_rfl).trans hrun), run_zero]
  | succ n ih =>
    intro s hlatch hhost hrun
    rw [List.replicate_succ, List.cons_append] at hhost
    rw [run_succ _ _ _ ((step_of_tick hhost).trans (unitStep_earlier hlatch (by simp)))]
    refine ih _ rfl rfl ?_
    exact (runWord_setLatch w (s.setHost rest) (some ⟨w, n + 1⟩)).trans hrun

/-- WAIT completes the command in flight at once and then reads STATUS. -/
theorem run_wait {w : Word} {n : Nat} {s t : State} {rest : List HostOp} (hlatch : s.latch = some ⟨w, n⟩)
    (hhost : s.host = .wait :: rest) (hrun : runWord w (s.setHost rest) = .next t) :
    Host.Core.run Sys2Proof.core 2 s = .next (t.pushRead (readReg t .status)) := by
  obtain ⟨hempty, _, _, _, _, _, _, hrest, _⟩ := runWord_frame _ _ _ hrun
  have hself : (s.setHost rest).setHost (.wait :: rest) = s := setHost_eq_self hhost
  have hcompletes : step s = .next (t.setHost (.wait :: rest)) := by
    have hwith := runWord_setHost w (s.setHost rest) t (.wait :: rest) hrun
    rwa [hself, ← waitStep_busy hlatch rest, ← step_of_wait hhost] at hwith
  have hback : (t.setHost (.wait :: rest)).setHost rest = t := setHost_eq_self hrest
  have hreads : step (t.setHost (.wait :: rest)) = .next (t.pushRead (readReg t .status)) := by
    rw [step_of_wait (setHost_host _ _), waitStep_idle (s := t.setHost (.wait :: rest)) hempty, hback]
    rfl
  rw [run_succ 1 _ _ hcompletes, run_succ 0 _ _ hreads, run_zero]

/-- Settles O22: `run_ticks` for a script of ticks, `run_wait` for WAIT. -/
theorem latencyIsUnobservable : Obligations.LatencyIsUnobservable := fun s _ _ n _ hlatch hrun =>
  ⟨fun hhost => run_ticks n s hlatch hhost hrun, fun hhost => run_wait hlatch hhost hrun⟩

/-! ## The checks in their order (60_exceptions.md R262) -/

theorem checkOf_packBc1_badParameter {s : State} (h : Ready .bc1 s) (hbad : ∃ p, 3 < selNibble s.sel 0 p) :
    checkOf .packBc1 s = .badParameter :=
  (checkOf_packBc1 h).trans (selectorCheck_badParameter hbad)

theorem checkOf_packBc4_badParameter {s : State} (h : Ready .bc4 s) (hbad : ∃ p, 7 < selNibble s.sel 0 p) :
    checkOf .packBc4 s = .badParameter :=
  (checkOf_packBc4 h).trans (selectorCheck_badParameter hbad)

/-- A common check of a data command that fails decides. -/
theorem checkOf_of_dataChecks {i : Instr} {s : State} {c : ResultCode} (hdata : i.op.isContext = false)
    (h : dataChecks i.fmt s = c) (hne : c ≠ .success) : checkOf i s = c := by
  obtain ⟨later, hcheck⟩ := checkOf_data i s hdata
  rw [hcheck, h, ResultCode.andThen, if_neg hne]

/-- The data operations other than PACK. -/
theorem mem_of_not_context_of_ne_pack {o : Op} (hdata : o.isContext = false) (hpack : o ≠ .pack) :
    o ∈ [.unpack, .select, .encode, .eval] := by
  cases o with
  | init | destroy | reset => cases hdata
  | pack => exact absurd rfl hpack
  | _ => decide

/-- Settles O30: each clause is a check that fails (`failsWith_of_checkOf`), the last one the checks that all pass. -/
theorem commonChecksInOrder : Obligations.CommonChecksInOrder := by
  refine ⟨fun w s hw => runWord_illegal hw s, fun s hctx => ?initContext, fun s hno => ?noContext,
    fun i s hdata hno => ?dataNoContext, fun i s hdata hctx hfmt => ?wrongFormat, fun s hno hinvalid => ?invalid,
    fun s hready hbad => ?pack1, fun s hready hbad => ?pack4, fun s hready hbad => ?pack5,
    fun i s hpack hdata hready => ?passes⟩
  case initContext => exact failsWith_of_checkOf (checkOf_init_context hctx) (by decide)
  case noContext =>
    have hcheck := contextCheck_noContext hno
    exact ⟨failsWith_of_checkOf (i := .destroy) hcheck (by decide),
      failsWith_of_checkOf (i := .reset) hcheck (by decide)⟩
  case dataNoContext =>
    exact failsWith_of_checkOf (checkOf_of_dataChecks hdata (dataChecks_noContext _ s hno) (by decide)) (by decide)
  case wrongFormat =>
    exact failsWith_of_checkOf (checkOf_of_dataChecks hdata (dataChecks_wrongFormat _ s hctx hfmt) (by decide))
      (by decide)
  case invalid => exact failsWith_of_checkOf (checkOf_init_noContext hno) hinvalid
  case pack1 => exact failsWith_of_checkOf (checkOf_packBc1_badParameter hready hbad) (by decide)
  case pack4 => exact failsWith_of_checkOf (checkOf_packBc4_badParameter hready hbad) (by decide)
  case pack5 => exact failsWith_of_checkOf (checkOf_packBc5_badParameter hready hbad) (by decide)
  case passes =>
    exact ⟨_, exec_of_checkOf (checkOf_of_ready (mem_of_not_context_of_ne_pack hdata hpack) hready), rfl⟩

/-! ## What a result depends on (30_encoding.md R85; 44_quantizer.md R248; 60_exceptions.md R278) -/

section
variable {s₁ s₂ : State}

theorem dataChecks_congr (f : Fmt) (hctxv : s₁.ctxv = s₂.ctxv) (hcfg0 : s₁.cfg0 = s₂.cfg0) :
    dataChecks f s₁ = dataChecks f s₂ := by
  rw [dataChecks, dataChecks, hctxv, hcfg0]

theorem selectorCheck_congr (n : Nat) (k : Fin 2) (hsel : s₁.sel = s₂.sel) :
    selectorCheck n k s₁ = selectorCheck n k s₂ := by
  rw [selectorCheck, selectorCheck, hsel]

/-- The checks of a command depend on the registers it reads. -/
theorem checkOf_congr {i : Instr} (h : SameReads i s₁ s₂) : checkOf i s₁ = checkOf i s₂ := by
  obtain ⟨hctxv, hcfg0, hop⟩ := h
  have hdata (f : Fmt) := dataChecks_congr f hctxv hcfg0
  cases i with
  | init =>
    obtain ⟨hcfg1, hcfg2⟩ := hop
    simp only [checkOf, noContextCheck, hctxv, hcfg0, hcfg1, hcfg2]
  | destroy | reset => simp only [checkOf, contextCheck, hctxv]
  | packBc1 | packBc4 | packBc5 =>
    obtain ⟨_, hsel⟩ := hop
    simp only [checkOf, hdata, selectorCheck_congr _ _ hsel]
  | _ => exact hdata _

/-- The effect of a command in the parts it writes depends on the registers it reads. -/
theorem effectOf_congr {i : Instr} (h : SameReads i s₁ s₂) :
    AgreeOn (partsWritten i) (effectOf i s₁) (effectOf i s₂) := by
  obtain ⟨_, hcfg0, hop⟩ := h
  cases i with
  | init | destroy | reset => simp [AgreeOn, partsWritten, effectOf]
  | packBc1 | packBc4 | packBc5 =>
    obtain ⟨hendp, hsel⟩ := hop
    simp [AgreeOn, partsWritten, effectOf, hendp, hsel]
  | unpackBc1 | unpackBc4 | unpackBc5 | unpackBc7 =>
    have hblock : s₁.block = s₂.block := hop
    simp [AgreeOn, partsWritten, effectOf, hcfg0, hblock]
  | selectBc1 | selectBc4 | selectBc5 =>
    obtain ⟨hendp, htile, hcfg2⟩ := hop
    simp [AgreeOn, partsWritten, effectOf, writeBc1, writeBc4, writeBc5, hcfg0, hendp, htile, hcfg2]
  | encodeBc1 | encodeBc4 | encodeBc5 | encodeBc7 =>
    obtain ⟨htile, hcfg1, hcfg2⟩ := hop
    simp [AgreeOn, partsWritten, effectOf, effectEncodeBc1, effectEncodeBc4, effectEncodeBc5, writeBc1, writeBc4,
      writeBc5, writeBc7, searchArgs, hcfg0, htile, hcfg1, hcfg2]
  | evalBc1 | evalBc4 | evalBc5 | evalBc7 =>
    obtain ⟨hblock, htile, hcfg2⟩ := hop
    simp [AgreeOn, partsWritten, effectOf, hcfg0, hblock, htile, hcfg2]

end

/-- Settles O33: the code by `checkOf_congr`; with Success both states are the effects, which agree by
`effectOf_congr`. -/
theorem resultsAreAFunctionOfReads : Obligations.ResultsAreAFunctionOfReads := by
  intro i s₁ s₂ t₁ t₂ hreads h₁ h₂
  have hcheck := checkOf_congr hreads
  have hresult := result_of_exec h₁
  refine ⟨by rw [hresult, result_of_exec h₂, hcheck], fun hzero => ?_⟩
  have hpass : checkOf i s₁ = .success := (code_eq_zero_iff _).1 (hresult.symm.trans hzero)
  cases h₁.symm.trans (exec_of_checkOf hpass)
  cases h₂.symm.trans (exec_of_checkOf (hcheck.symm.trans hpass))
  exact effectOf_congr hreads

/-! ## The bound of ERR (10_state.md R38) -/

theorem toNat_err_le {e : Nat} (h : e ≤ maxError) : (BitVec.ofNat 32 e).toNat ≤ maxError :=
  (toNat_err h).trans_le h

/-- The errors of two channels together are within the bound. -/
theorem channelErrors_le {a b : Nat} (ha : a ≤ 16 * 255 ^ 2) (hb : b ≤ 16 * 255 ^ 2) : a + b ≤ maxError := by
  unfold maxError; omega

theorem channelError_le {a : Nat} (ha : a ≤ 16 * 255 ^ 2) : a ≤ maxError := channelErrors_le ha (Nat.zero_le _)

/-- Whatever a command writes to ERR is within the bound: 0, the error of a decoded block, or the error of the chosen
selectors or endpoints. -/
theorem effectOf_err_le (i : Instr) {s : State} (h : s.err.toNat ≤ maxError) :
    (effectOf i s).err.toNat ≤ maxError := by
  have hselect (ch j k : Nat) := sel4Err_tileChannel_le s.tile ch (endpByte_le s.endp j) (endpByte_le s.endp k)
  have hencode (ch : Nat) := encBc4_err_le (cfgRadius s.cfg0) (tileChannel_le s.tile ch)
  have heval (b ch : Nat) := errBc4_bc4Values_le b s.tile ch
  cases i with
  | init | destroy | reset => exact Nat.zero_le _
  | packBc1 | packBc4 | packBc5 | unpackBc1 | unpackBc4 | unpackBc5 | unpackBc7 => exact h
  | selectBc1 => exact toNat_err_le (sel1Err_le _ _ _ (slice_lt 15 0 _) (slice_lt 31 16 _))
  | selectBc4 => exact toNat_err_le (channelError_le (hselect _ 0 1))
  | selectBc5 => exact toNat_err_le (channelErrors_le (hselect _ 0 1) (hselect _ 2 3))
  | encodeBc1 => exact toNat_err_le (encBc1_err_le _ _ _)
  | encodeBc4 => exact toNat_err_le (channelError_le (hencode _))
  | encodeBc5 => exact toNat_err_le (channelErrors_le (hencode _) (hencode _))
  | encodeBc7 => exact toNat_err_le (errBc7_le _ _ (byteRange_bc7Decode _) _)
  | evalBc1 => exact toNat_err_le (errBc1_le _ _ (byteRange_bc1Decode _ _) _)
  | evalBc4 => exact toNat_err_le (channelError_le (heval _ _))
  | evalBc5 => exact toNat_err_le (channelErrors_le (heval _ _) (heval _ _))
  | evalBc7 => exact toNat_err_le (errBc7_le _ _ (byteRange_bc7Decode _) _)

theorem runWord_err_le {w : Word} {s t : State} (hrun : runWord w s = .next t) (h : s.err.toNat ≤ maxError) :
    t.err.toNat ≤ maxError := by
  rcases runWord_cases w s t hrun with ⟨i, _, hexec⟩ | rfl
  · rw [exec_eq_next] at hexec
    cases hexec
    rw [finish_err]
    split
    · exact effectOf_err_le i h
    · exact h
  · exact h

/-! ## Every step keeps a legal state (60_exceptions.md R261, R265; 40_context.md R124; 10_state.md R33, R38) -/

/-- After a completion a context has a valid configuration: INIT has just validated it, or it had one before. -/
theorem runWord_validConfig {w : Word} {s t : State} (hrun : runWord w s = .next t)
    (h : s.ctxv = true → validate s.cfg0 s.cfg1 s.cfg2 = .success) :
    t.ctxv = true → validate t.cfg0 t.cfg1 t.cfg2 = .success := by
  intro hctx
  obtain ⟨_, _, _, _, hcfg0, hcfg1, hcfg2, _⟩ := runWord_frame w s t hrun
  rw [hcfg0, hcfg1, hcfg2]
  by_cases hkept : t.ctxv = s.ctxv
  · exact h (hkept.symm.trans hctx)
  · obtain ⟨_, ⟨_, _, hvalid⟩ | ⟨_, hold⟩⟩ := runWord_changes_ctxv hrun hkept
    · exact hvalid
    · exact absurd (hctx.trans hold.symm) hkept

theorem runWord_keeps_stateOk {w : Word} {s t : State} (hok : StateOk s) (hrun : runWord w s = .next t) :
    StateOk t := by
  obtain ⟨_, _, _, hconfig, herr⟩ := hok
  obtain ⟨hempty, _⟩ := runWord_frame w s t hrun
  exact ⟨result_of_runWord hrun, by simp [hempty], by simp [State.busy, hempty], runWord_validConfig hrun hconfig,
    runWord_err_le hrun herr⟩

/-- The unit's count goes down to 1 and no further; its last step is the completion. -/
theorem unitStep_keeps_stateOk {s t : State} (hok : StateOk s) (h : unitStep s = .next t) : StateOk t := by
  rcases unitStep_cases s t h with ⟨_, rfl⟩ | ⟨f, hlatch, ⟨_, hrun⟩ | ⟨hmore, rfl⟩⟩
  · exact hok
  · exact runWord_keeps_stateOk hok hrun
  · obtain ⟨hresult, _, hdone, hrest⟩ := hok
    have hbusy : s.busy = true := by rw [State.busy, hlatch]; rfl
    refine ⟨hresult, ?_, fun _ => hdone hbusy, hrest⟩
    simp only [setLatch_latch, Option.mem_some_iff, forall_eq']
    omega

/-- A store issues with a latency of at least 1, acknowledges DONE, writes CFG0..CFG2 without a context only, or touches
nothing that StateOk speaks of. -/
theorem storeReg_keeps_stateOk (r : Reg) (v : Word) {s : State} (hok : StateOk s) : StateOk (storeReg r v s) := by
  have ⟨hresult, hlatch, hdone, hconfig, herr⟩ := hok
  cases r with
  | cmd =>
    refine ⟨hresult, ?_, fun _ => rfl, hconfig, herr⟩
    simp [storeReg, bcuLatency]
  | status =>
    refine ⟨hresult, hlatch, fun hbusy => ?_, hconfig, herr⟩
    simp [storeReg, hdone hbusy]
  | cfg0 | cfg1 | cfg2 =>
    by_cases hctx : s.ctxv = true
    · simp only [storeReg, if_pos hctx]
      exact hok
    · simp only [storeReg, if_neg hctx]
      exact ⟨hresult, hlatch, hdone, fun h => absurd h hctx, herr⟩
  | _ => simpa [StateOk, State.busy, storeReg] using hok

theorem writeOffset_keeps_stateOk (o : Nat) (v : Word) {s : State} (hok : StateOk s) :
    StateOk (writeOffset o v s) := by
  rcases writeOffset_cases o v s with ⟨_, h⟩ | ⟨r, _, ⟨_, _, h⟩ | ⟨_, h⟩⟩ <;> rw [h]
  · exact hok
  · exact hok
  · exact storeReg_keeps_stateOk r v hok

/-- The host's side is not part of a legal state. -/
theorem stateOk_setHost {s : State} (hok : StateOk s) (h : List HostOp) : StateOk (s.setHost h) := hok

theorem stateOk_pushRead {s : State} (hok : StateOk s) (v : Word) : StateOk (s.pushRead v) := hok

/-- Hardware reset gives every register its reset value. -/
theorem stateOk_hardReset (s : State) : StateOk (hardReset s) := resetStateIsLegal

/-- Settles O8: the cases are those of `step_cases`, each by the lemma on its event. -/
theorem stepKeepsLegalState : Obligations.StepKeepsLegalState := by
  intro s t hok hstep
  rcases step_cases s t hstep with ⟨_, hunit⟩ | ⟨e, rest, _, hevent⟩
  · exact unitStep_keeps_stateOk hok hunit
  · have hok' := stateOk_setHost hok rest
    rcases hevent with ⟨a, o, _, _, _, rfl⟩ | ⟨a, o, v, _, _, _, rfl⟩ | ⟨_, hunit⟩ | ⟨_, hwait⟩ | ⟨_, rfl⟩
    · exact stateOk_pushRead hok' _
    · exact writeOffset_keeps_stateOk o v hok'
    · exact unitStep_keeps_stateOk hok' hunit
    · rcases waitStep_cases rest s t hwait with ⟨_, rfl⟩ | ⟨f, _, hrun⟩
      · exact stateOk_pushRead hok' _
      · exact runWord_keeps_stateOk hok hrun
    · exact stateOk_hardReset _

end Sys2Proof.Machine
end

section
/-! Proofs about reset and hazards (70_reset_and_hazards.md): what hardware reset leaves in the registers, the
configuration of a session, and that two units which differ only in STATUS, CTRL and what the host has read stay so
under every step. -/

namespace Sys2Proof.Machine

/-! ## Hardware reset (70_reset_and_hazards.md R290, R291) -/

/-- Where the data registers are 0, each of them reads 0. -/
theorem readReg_of_dataZero {s : State} (h : DataZero s) :
    (∀ p, readReg s (.tile p) = 0) ∧ (∀ k, readReg s (.blockWord k) = 0) ∧ readReg s .endp = 0 ∧
    (∀ k, readReg s (.sel k) = 0) ∧ readReg s .err = 0 ∧ ∀ p, readReg s (.out p) = 0 := by
  obtain ⟨htile, hblock, hendp, hsel, herr, hout⟩ := h
  refine ⟨htile, fun k => ?_, hendp, hsel, herr, hout⟩
  have hbyte (j : Fin 4) : s.block[4 * k.val + j.val] = 0 := hblock ⟨4 * k.val + j.val, by omega⟩
  calc readReg s (.blockWord k)
    _ = wordOfBytes s.block[4 * k.val] s.block[4 * k.val + 1] s.block[4 * k.val + 2] s.block[4 * k.val + 3] :=
      blockWord_eq_wordOfBytes s.block k
    _ = wordOfBytes 0 0 0 0 := congr (congr (congr (congrArg wordOfBytes (hbyte 0)) (hbyte 1)) (hbyte 2)) (hbyte 3)
    _ = 0 := rfl

/-- Hardware reset leaves the data registers as ZeroData does. -/
theorem dataZero_reset : DataZero State.reset := dataZero_zeroData State.reset

/-- Settles O5: the configuration and the flags by the reset state's fields, the data registers by
`readReg_of_dataZero`. -/
theorem resetValues : Obligations.ResetValues := by
  obtain ⟨htile, hblock, hendp, hsel, herr, hout⟩ := readReg_of_dataZero dataZero_reset
  exact ⟨rfl, rfl, rfl, rfl, rfl, htile, hblock, hendp, hsel, herr, hout, rfl, rfl⟩

/-- The registers do not hold the host's side, which alone outlives hardware reset (entry 15). -/
theorem readReg_hardReset (s : State) (r : Reg) : readReg (hardReset s) r = readReg State.reset r := by
  cases r <;> rfl

/-- Settles O6: the step is `hardReset`, whose registers read as in the reset state. -/
theorem hardwareResetFromAnyState : Obligations.HardwareResetFromAnyState := fun _ _ hhost =>
  ⟨_, step_of_event hhost, readReg_hardReset _, rfl, rfl, rfl, rfl, irq_of_not_done rfl⟩

/-! ## The configuration of a session (70_reset_and_hazards.md R296; 10_state.md R33) -/

/-- Under a context no store changes CFG0..CFG2: those to CFG0..CFG2 are ignored, the others go elsewhere. -/
theorem storeReg_cfg_of_context (r : Reg) (v : Word) {s : State} (hctx : s.ctxv = true) :
    (storeReg r v s).cfg0 = s.cfg0 ∧ (storeReg r v s).cfg1 = s.cfg1 ∧ (storeReg r v s).cfg2 = s.cfg2 := by
  obtain ⟨h0, h1, h2⟩ := storeReg_cfg_locked hctx v
  cases r with
  | cfg0 => rw [h0]; exact ⟨rfl, rfl, rfl⟩
  | cfg1 => rw [h1]; exact ⟨rfl, rfl, rfl⟩
  | cfg2 => rw [h2]; exact ⟨rfl, rfl, rfl⟩
  | _ => exact ⟨rfl, rfl, rfl⟩

theorem writeOffset_cfg_of_context (o : Nat) (v : Word) {s : State} (hctx : s.ctxv = true) :
    (writeOffset o v s).cfg0 = s.cfg0 ∧ (writeOffset o v s).cfg1 = s.cfg1 ∧ (writeOffset o v s).cfg2 = s.cfg2 := by
  rcases writeOffset_cases o v s with ⟨_, h⟩ | ⟨r, _, ⟨_, _, h⟩ | ⟨_, h⟩⟩ <;> rw [h]
  · exact ⟨rfl, rfl, rfl⟩
  · exact ⟨rfl, rfl, rfl⟩
  · exact storeReg_cfg_of_context r v hctx

/-- Settles O26: of the four events of a step a completion keeps CFG0..CFG2 whatever the word, and a write does under a
context. -/
theorem configurationFixedInSession : Obligations.ConfigurationFixedInSession := by
  intro s t hstep hctx hnoReset
  cases stepEvent_of_step hstep with
  | quiet => exact ⟨rfl, rfl, rfl⟩
  | write a v rest o _ _ _ => exact writeOffset_cfg_of_context o v (s := s.setHost rest) hctx
  | completion _ f host _ hrun =>
    obtain ⟨_, _, _, _, hcfg0, hcfg1, hcfg2, _⟩ := runWord_frame _ _ _ hrun
    exact ⟨hcfg0, hcfg1, hcfg2⟩
  | reset rest hhost => exact absurd hhost (hnoReset rest)

/-! ## Units that differ in STATUS, CTRL and what the host has read only (70_reset_and_hazards.md R293)

`SameUnit` is a simulation: whatever one unit does in a step the other does too, and they are the same unit again. A
completion keeps it because a result is a function of what the command reads (O33) and the rest is framed (O31). -/

section
variable {s₁ s₂ t₁ : State}

theorem sameUnit_latch (h : SameUnit s₁ s₂) : s₁.latch = s₂.latch := by
  obtain ⟨_, _, _, _, _, _, _, _, _, _, hlatch, _⟩ := h
  exact hlatch

theorem sameUnit_host (h : SameUnit s₁ s₂) : s₁.host = s₂.host := by
  obtain ⟨_, _, _, _, _, _, _, _, _, _, _, hhost⟩ := h
  exact hhost

theorem sameUnit_setHost (h : SameUnit s₁ s₂) (script : List HostOp) :
    SameUnit (s₁.setHost script) (s₂.setHost script) := by
  obtain ⟨hctxv, hcfg0, hcfg1, hcfg2, htile, hblock, hendp, hsel, herr, hout, hlatch, _⟩ := h
  exact ⟨hctxv, hcfg0, hcfg1, hcfg2, htile, hblock, hendp, hsel, herr, hout, hlatch, rfl⟩

theorem sameUnit_setLatch (h : SameUnit s₁ s₂) (l : Option InFlight) :
    SameUnit (s₁.setLatch l) (s₂.setLatch l) := by
  obtain ⟨hctxv, hcfg0, hcfg1, hcfg2, htile, hblock, hendp, hsel, herr, hout, _, hhost⟩ := h
  exact ⟨hctxv, hcfg0, hcfg1, hcfg2, htile, hblock, hendp, hsel, herr, hout, rfl, hhost⟩

/-- A completion ends with both latches empty. -/
theorem sameUnit_finish (h : SameUnit s₁ s₂) (c₁ c₂ : ResultCode) : SameUnit (finish c₁ s₁) (finish c₂ s₂) :=
  sameUnit_setLatch h none

/-- Hardware reset keeps the script alone. -/
theorem sameUnit_hardReset (hhost : s₁.host = s₂.host) : SameUnit (hardReset s₁) (hardReset s₂) := by
  simp [SameUnit, hhost]

/-- The words the host has read are outside the unit. -/
theorem sameUnit_pushRead (h : SameUnit s₁ s₂) (v₁ v₂ : Word) : SameUnit (s₁.pushRead v₁) (s₂.pushRead v₂) := h

theorem sameUnit_dropWrite (h : SameUnit s₁ s₂) : SameUnit (dropWrite s₁) (dropWrite s₂) := h

/-- After a completed ZeroData two units with one CTXV, configuration and script are the same. -/
theorem sameUnit_finish_zeroData (hctxv : s₁.ctxv = s₂.ctxv) (hcfg0 : s₁.cfg0 = s₂.cfg0) (hcfg1 : s₁.cfg1 = s₂.cfg1)
    (hcfg2 : s₁.cfg2 = s₂.cfg2) (hhost : s₁.host = s₂.host) (c₁ c₂ : ResultCode) :
    SameUnit (finish c₁ (zeroData s₁)) (finish c₂ (zeroData s₂)) :=
  ⟨hctxv, hcfg0, hcfg1, hcfg2, rfl, rfl, rfl, rfl, rfl, rfl, rfl, hhost⟩

/-! ### A write -/

/-- The same word has the same latency in the same unit (60_exceptions.md R265; entry 4). -/
theorem sameUnit_issue (h : SameUnit s₁ s₂) (w : Word) : SameUnit (issue w s₁) (issue w s₂) := by
  have ⟨hctxv, hcfg0, hcfg1, hcfg2, htile, hblock, hendp, hsel, _⟩ := h
  have hinputs : inputsOf s₁ = inputsOf s₂ := by
    simp only [inputsOf, hctxv, hcfg0, hcfg1, hcfg2, htile, hblock, hendp, hsel]
  have hlatency : bcuLatency w s₁ = bcuLatency w s₂ := by rw [bcuLatency, bcuLatency, hinputs]
  rw [issue, issue, hlatency]
  exact sameUnit_setLatch h (some ⟨w, bcuLatency w s₂⟩)

theorem sameUnit_storeReg (h : SameUnit s₁ s₂) (r : Reg) (v : Word) :
    SameUnit (storeReg r v s₁) (storeReg r v s₂) := by
  have ⟨hctxv, hcfg0, hcfg1, hcfg2, htile, hblock, hendp, hsel, herr, hout, hlatch, hhost⟩ := h
  cases r with
  | cmd => exact sameUnit_issue h v
  | status | ctrl | err | out => exact h
  | cfg0 | cfg1 | cfg2 =>
    simp only [storeReg, hctxv]
    split
    · exact h
    · simp [SameUnit, *]
  | tile | blockWord | endp | sel => simp [SameUnit, storeReg, *]

theorem sameUnit_writeOffset (h : SameUnit s₁ s₂) (o : Nat) (v : Word) :
    SameUnit (writeOffset o v s₁) (writeOffset o v s₂) := by
  cases hreg : regAt o with
  | none => rwa [writeOffset_reserved s₁ o v hreg, writeOffset_reserved s₂ o v hreg]
  | some r =>
    have hbusy : s₁.busy = s₂.busy := by rw [State.busy, State.busy, sameUnit_latch h]
    rw [writeOffset_of_reg s₁ o v r hreg, writeOffset_of_reg s₂ o v r hreg, writeReg, writeReg, hbusy]
    split
    · exact sameUnit_dropWrite h
    · exact sameUnit_storeReg h r v

/-! ### A completion -/

/-- Every register a command may read belongs to the unit. -/
theorem sameReads_of_sameUnit (h : SameUnit s₁ s₂) (i : Instr) : SameReads i s₁ s₂ := by
  obtain ⟨hctxv, hcfg0, hcfg1, hcfg2, htile, hblock, hendp, hsel, _⟩ := h
  refine ⟨hctxv, hcfg0, ?_⟩
  cases i.op <;> simp [*]

/-- A part two states agreed on, which both have kept or both have written alike, is still the same. -/
theorem eq_of_frame {α : Type} {p : Part} {ps : List Part} {x₁ x₂ y₁ y₂ : α} (hold : x₁ = x₂)
    (hkept₁ : p ∉ ps → y₁ = x₁) (hkept₂ : p ∉ ps → y₂ = x₂) (hwritten : p ∈ ps → y₁ = y₂) : y₁ = y₂ := by
  by_cases hp : p ∈ ps
  · exact hwritten hp
  · rw [hkept₁ hp, hkept₂ hp, hold]

/-- Two units that agreed, changed in the parts `ps` only and agree there, still agree. -/
theorem sameUnit_of_sameBut {ps : List Part} {t₂ : State} (h : SameUnit s₁ s₂) (hframe₁ : SameBut ps s₁ t₁)
    (hframe₂ : SameBut ps s₂ t₂) (hagree : AgreeOn ps t₁ t₂) (hlatch : t₁.latch = t₂.latch) : SameUnit t₁ t₂ := by
  obtain ⟨_, _, acfg0, acfg1, acfg2, ahost, _, actxv, atile, ablock, aendp, asel, aerr, aout⟩ := hframe₁
  obtain ⟨_, _, bcfg0, bcfg1, bcfg2, bhost, _, bctxv, btile, bblock, bendp, bsel, berr, bout⟩ := hframe₂
  obtain ⟨hctxv, hcfg0, hcfg1, hcfg2, htile, hblock, hendp, hsel, herr, hout, _, hhost⟩ := h
  obtain ⟨wctxv, wtile, wblock, wendp, wsel, werr, wout⟩ := hagree
  exact ⟨eq_of_frame hctxv actxv bctxv wctxv, by rw [acfg0, bcfg0, hcfg0], by rw [acfg1, bcfg1, hcfg1],
    by rw [acfg2, bcfg2, hcfg2], eq_of_frame htile atile btile wtile, eq_of_frame hblock ablock bblock wblock,
    eq_of_frame hendp aendp bendp wendp, eq_of_frame hsel asel bsel wsel, eq_of_frame herr aerr berr werr,
    eq_of_frame hout aout bout wout, hlatch, by rw [ahost, bhost, hhost]⟩

/-- A command ends with the latch empty. -/
theorem latch_of_exec {i : Instr} {s t : State} (h : exec i s = .next t) : t.latch = none := by
  rw [exec_eq_next] at h
  cases h; rfl

/-- A command ends in the same way on both units; with Success they agree in what it writes (O33) and outside (O31). -/
theorem sameUnit_exec {i : Instr} {t₂ : State} (h : SameUnit s₁ s₂) (h₁ : exec i s₁ = .next t₁)
    (h₂ : exec i s₂ = .next t₂) : SameUnit t₁ t₂ := by
  have hreads := sameReads_of_sameUnit h i
  rcases exec_cases i s₁ t₁ h₁ with ⟨_, ⟨hzero, _, _⟩, hframe₁⟩ | ⟨hfail, rfl⟩
  · have hframe₂ := commandsWriteOnlyTheirRegisters i s₂ t₂ h₂
    obtain ⟨_, hagree⟩ := resultsAreAFunctionOfReads i s₁ s₂ t₁ t₂ hreads h₁ h₂
    exact sameUnit_of_sameBut h hframe₁ hframe₂ (hagree hzero) ((latch_of_exec h₁).trans (latch_of_exec h₂).symm)
  · rcases exec_cases i s₂ t₂ h₂ with ⟨hpass, _⟩ | ⟨_, rfl⟩
    · exact absurd ((checkOf_congr hreads).trans hpass) hfail
    · exact sameUnit_finish h _ _

theorem sameUnit_runWord (h : SameUnit s₁ s₂) {w : Word} (hrun : runWord w s₁ = .next t₁) :
    ∃ t₂, runWord w s₂ = .next t₂ ∧ SameUnit t₁ t₂ := by
  cases hdec : decodeWord w with
  | ok i =>
    rw [runWord_of_decodeWord hdec] at hrun ⊢
    obtain ⟨t₂, h₂⟩ := exec_answers i s₂
    exact ⟨t₂, h₂, sameUnit_exec h hrun h₂⟩
  | error r =>
    have hillegal (i : Instr) : w ≠ encode i := fun hw => decodeWord_ne_ok hdec i ((decodeWord_eq_ok_iff w i).2 hw)
    rw [runWord_illegal hillegal] at hrun ⊢
    cases hrun
    exact ⟨_, rfl, sameUnit_finish h _ _⟩

/-! ### A step and a run -/

theorem unitStep_idle {s : State} (hlatch : s.latch = none) : unitStep s = .next s := by
  rw [unitStep, hlatch]

theorem sameUnit_unitStep (h : SameUnit s₁ s₂) (hunit : unitStep s₁ = .next t₁) :
    ∃ t₂, unitStep s₂ = .next t₂ ∧ SameUnit t₁ t₂ := by
  have hlatch := sameUnit_latch h
  rcases unitStep_cases s₁ t₁ hunit with ⟨hidle, rfl⟩ | ⟨f, hflight, ⟨hlast, hrun⟩ | ⟨hmore, rfl⟩⟩
  · exact ⟨s₂, unitStep_idle (hlatch.symm.trans hidle), h⟩
  · rw [unitStep_last (hlatch.symm.trans hflight) hlast]
    exact sameUnit_runWord h hrun
  · exact ⟨_, unitStep_earlier (hlatch.symm.trans hflight) hmore, sameUnit_setLatch h _⟩

theorem sameUnit_waitStep (h : SameUnit s₁ s₂) {rest : List HostOp} (hwait : waitStep rest s₁ = .next t₁) :
    ∃ t₂, waitStep rest s₂ = .next t₂ ∧ SameUnit t₁ t₂ := by
  have hlatch := sameUnit_latch h
  rcases waitStep_cases rest s₁ t₁ hwait with ⟨hidle, rfl⟩ | ⟨f, hflight, hrun⟩
  · exact ⟨_, waitStep_idle (hlatch.symm.trans hidle) rest, sameUnit_pushRead (sameUnit_setHost h rest) _ _⟩
  · rw [waitStep_busy (hlatch.symm.trans hflight)]
    exact sameUnit_runWord h hrun

/-- The two scripts have the same event in front, and each event keeps the units the same. -/
theorem sameUnit_step (h : SameUnit s₁ s₂) (hstep : step s₁ = .next t₁) :
    ∃ t₂, step s₂ = .next t₂ ∧ SameUnit t₁ t₂ := by
  have hhost := sameUnit_host h
  rcases step_cases s₁ t₁ hstep with ⟨hnone, hunit⟩ | ⟨e, rest, hscript, hevent⟩
  · rw [step_of_noScript (hhost.symm.trans hnone)]
    exact sameUnit_unitStep h hunit
  · have hscript₂ : s₂.host = e :: rest := hhost.symm.trans hscript
    have hrest := sameUnit_setHost h rest
    rcases hevent with ⟨a, o, rfl, ho, h4, rfl⟩ | ⟨a, o, v, rfl, ho, h4, rfl⟩ | ⟨rfl, hunit⟩ | ⟨rfl, hwait⟩ | ⟨rfl, rfl⟩
    · exact ⟨_, step_of_accepted_read hscript₂ ho h4, sameUnit_pushRead hrest _ _⟩
    · exact ⟨_, step_of_accepted_write hscript₂ ho h4, sameUnit_writeOffset hrest o v⟩
    · rw [step_of_tick hscript₂]
      exact sameUnit_unitStep hrest hunit
    · rw [step_of_wait hscript₂]
      exact sameUnit_waitStep h hwait
    · exact ⟨_, step_of_event hscript₂, sameUnit_hardReset rfl⟩

/-- A run of one unit is matched step by step by the other. -/
theorem sameUnit_run (k : Nat) : ∀ {s₁ s₂ u₁ : State}, SameUnit s₁ s₂ →
    Host.Core.run Sys2Proof.core k s₁ = .next u₁ →
    ∃ u₂ : State, Host.Core.run Sys2Proof.core k s₂ = .next u₂ ∧ SameUnit u₁ u₂ := by
  induction k with
  | zero =>
    intro s₁ s₂ u₁ h hrun
    rw [run_zero] at hrun
    cases hrun
    exact ⟨s₂, run_zero s₂, h⟩
  | succ k ih =>
    intro s₁ s₂ u₁ h hrun
    obtain ⟨t₁, hstep₁, hrest⟩ := run_succ_cases k s₁ u₁ hrun
    obtain ⟨t₂, hstep₂, hnext⟩ := sameUnit_step h hstep₁
    rw [run_succ k s₂ t₂ hstep₂]
    exact ih hnext hrest

end

/-- With a context RESET is ZeroData, completed. -/
theorem exec_reset_of_context {s : State} (hctx : s.ctxv = true) :
    exec .reset s = .next (finish .success (zeroData s)) :=
  exec_of_checkOf (i := .reset) ((contextCheck_success s).2 hctx)

/-- Settles O34: RESET leaves the same unit (`sameUnit_finish_zeroData`), and every run keeps it so (`sameUnit_run`). -/
theorem runsForgetTheStateBeforeReset : Obligations.RunsForgetTheStateBeforeReset := by
  intro s₁ s₂ t₁ t₂ u₁ k hctx₁ hctx₂ hcfg0 hcfg1 hcfg2 hhost hreset₁ hreset₂ hrun
  rw [exec_reset_of_context hctx₁] at hreset₁
  rw [exec_reset_of_context hctx₂] at hreset₂
  cases hreset₁
  cases hreset₂
  exact sameUnit_run k (sameUnit_finish_zeroData (hctx₁.trans hctx₂.symm) hcfg0 hcfg1 hcfg2 hhost _ _) hrun

end Sys2Proof.Machine
end
